-- ==== Sys2Proof/Word.lean ====
section
/-!
DEFINITION. The words of the loader, at the widths the spec gives them, and the two closed sets of names the
spec enumerates: the nineteen phases (30_encoding R99) and the six results (30_encoding R102). Their numeric codes
stand in Decode.lean.
-/

namespace Sys2Proof

/-- A byte of the image, eight bits (00_scope R7). -/
abbrev Byte := BitVec 8

/-- A pin word in PIN5 layout: CCLK bit 0, DIN bit 1, DONE bit 2, INIT_B bit 3, PROGRAM_B bit 4 (30_encoding R94). -/
abbrev PinWord := BitVec 5

/-- The value of the PHASE register (10_state R21). -/
abbrev PhaseCode := BitVec 5

/-- A RES3 result code (30_encoding R102) or an EVT3 tag (30_encoding R103). -/
abbrev Code3 := BitVec 3

/-- A header field, LEN, IDX or the operand of `Wait` (30_encoding R92, R107; 10_state R24, R25). -/
abbrev Word32 := BitVec 32

/-- A millisecond count of the time source (30_encoding R107). -/
abbrev Millis := BitVec 64

/-- The nineteen phases of 30_encoding R99, in the order of their codes. -/
inductive Phase where
  | idle | vMagic | vLen | dOe | rLow | rLowWait | rHigh | rHighWait | wInit | sFetch | sShift | sCheck
  | pAnchor | pSample | pFill | pDeadline | fComp | fIdle | xRet
  deriving DecidableEq, Repr

/-- The result kinds of 30_encoding R102: success and the five failures of 60_exceptions R230. -/
inductive Kind where
  | ok | badMagic | imageTooLarge | initTimeout | midStreamAbort | doneTimeout
  deriving DecidableEq, Repr

end Sys2Proof
end

