-- ==== Sys2Proof/Config.lean ====
section
/-!
DEFINITION. The implementation parameters of 00_scope R5 as named constants (their values are the source's, and
unaudited: 93_implementation_defined U12), and the free values: what the environment answers, which the spec leaves
under no law but monotonicity (40_interface_primitives R122, R124).
-/

namespace Sys2Proof.Config

/-- Required value of header bytes 0 to 3, "SAR1" (00_scope R5). -/
def MAGIC : Word32 := 0x53415231#32

/-- Largest accepted payload length, inclusive (00_scope R5). -/
def MAX_LEN : Word32 := 0x220000#32

/-- Size of the header; the payload starts at this offset (00_scope R5). -/
def HEADER_BYTES : Nat := 8

/-- Configuration clock line, bit 0 (00_scope R5). -/
def CCLK_BIT : PinWord := 0x01#5

/-- Serial data line, bit 1 (00_scope R5). -/
def DIN_BIT : PinWord := 0x02#5

/-- Completion input, bit 2 (00_scope R5). -/
def DONE_BIT : PinWord := 0x04#5

/-- Init-ready input, bit 3 (00_scope R5). -/
def INIT_B_BIT : PinWord := 0x08#5

/-- Program-reset line, bit 4 (00_scope R5). -/
def PROGRAM_B_BIT : PinWord := 0x10#5

/-- The lines configured as outputs (00_scope R5, 30_encoding R96). -/
def OE_MASK : PinWord := CCLK_BIT ||| DIN_BIT ||| PROGRAM_B_BIT

/-- Microseconds PROGRAM_B is held low (00_scope R5, 42_reset_sequencer R163). -/
def T_PROGRAM_US : Word32 := 1#32

/-- The target's minimum low pulse in nanoseconds; no rule computes with it (00_scope R5). -/
def T_PROGRAM_MIN_NS : Nat := 250

/-- Microseconds waited before INIT_B is sampled (00_scope R5, 42_reset_sequencer R165). -/
def T_INIT_US : Word32 := 5000#32

/-- Completion-poll deadline in milliseconds (00_scope R5, 44_completion_poll R204). -/
def T_DONE_MS : Nat := 100

/-- The byte shifted while polling and once after completion (00_scope R5). -/
def FILLER : Byte := 0xFF#8

/-- What IMAGE_BASE, OPEN in 00_scope R5, is at reset. DESIGN CHOICE, log 2: the address is a field of State, and no
statement rests on this value. -/
def RESET_IMAGE_BASE : Nat := 0

/-- What IMAGE_EXTENT, OPEN in 00_scope R5, is at reset. DESIGN CHOICE, log 2: the least extent that 20_memory R64
says satisfies the host's duty for every header. -/
def RESET_IMAGE_EXTENT : Nat := HEADER_BYTES + MAX_LEN.toNat

/-- FREE VALUE (log 3). The word the environment answers to an `In()` for which no answer has been placed: a free draw,
"the spec places no law on it" (40_interface_primitives R122). -/
opaque freeIn : Nat → PinWord

/-- FREE VALUE (log 4). The count the environment answers to a `Now()` for which no answer has been placed, before the
monotonic contract is applied to it (40_interface_primitives R124). -/
opaque freeNow : Nat → Millis

end Sys2Proof.Config
end

