-- ==== Sys2Proof/Machine/Operands.lean ====
section
/-!
DEFINITION. The operand forms of the loader: the assembly of header fields (30_encoding R92), the pin words it writes
(30_encoding R95, R96), the serialising of a byte (30_encoding R98) and the offsets of the image (20_memory R62).
-/

namespace Sys2Proof.Machine

/-- BE32: the byte at the lowest offset is the most significant (00_scope R7). -/
def be32 (b0 b1 b2 b3 : Byte) : Word32 :=
  b0.setWidth 32 <<< 24 ||| b1.setWidth 32 <<< 16 ||| b2.setWidth 32 <<< 8 ||| b3.setWidth 32

/-- BE32 of a list of four bytes, the form `MemRead(addr, 4)` returns (40_interface_primitives R123). -/
def be32OfBytes : List Byte → Word32
  | [b0, b1, b2, b3] => be32 b0 b1 b2 b3
  | _ => 0#32

/-- The magic field of a header word, `H[63:32]` (30_encoding R91). -/
def headerMagic (h : BitVec 64) : Word32 := h.extractLsb' 32 32

/-- The length field of a header word, `H[31:0]` (30_encoding R91). -/
def headerLength (h : BitVec 64) : Word32 := h.extractLsb' 0 32

/-- The header word of a magic and a length: the magic is the more significant half (30_encoding R91). -/
def headerWord (magic length : Word32) : BitVec 64 := magic ++ length

/-- A big-endian header as the eight bytes of image offsets 0 to 7 (20_memory R67). -/
def headerBytes (h : BitVec 64) : List Byte :=
  [h.extractLsb' 56 8, h.extractLsb' 48 8, h.extractLsb' 40 8, h.extractLsb' 32 8,
   h.extractLsb' 24 8, h.extractLsb' 16 8, h.extractLsb' 8 8, h.extractLsb' 0 8]

/-- Whether a pin word has the line of a mask of 00_scope R5 high: `w & mask` is not 0 (30_encoding R94). -/
def lineHigh (mask w : PinWord) : Bool := w &&& mask != 0#5

/-- Bit `7 - k` of a byte: the k-th bit sent, most significant first (30_encoding R98, 43_bit_shifter R183). -/
def dataBit (b : Byte) (k : BitVec 3) : Bool := b.getLsbD (7 - k.toNat)

/-- PIN_RESET: PROGRAM_B, DIN and CCLK low (30_encoding R95). -/
def pinResetWord : PinWord := 0x00#5

/-- PIN_IDLE: PROGRAM_B high, DIN and CCLK low (30_encoding R95). -/
def pinIdleWord : PinWord := Config.PROGRAM_B_BIT

/-- PIN_SETUP(d): PROGRAM_B high, DIN = d, CCLK low (30_encoding R95). -/
def pinSetupWord (d : Bool) : PinWord :=
  Config.PROGRAM_B_BIT ||| (if d then Config.DIN_BIT else 0#5)

/-- PIN_CLOCK(d): the same lines with CCLK high (30_encoding R95). -/
def pinClockWord (d : Bool) : PinWord := pinSetupWord d ||| Config.CCLK_BIT

/-- The complete list of OUT words the loader ever writes (30_encoding R95). -/
def outWords : List PinWord :=
  [pinResetWord, pinSetupWord false, pinClockWord false, pinSetupWord true, pinClockWord true]

/-- The eight bit indexes of a byte, in the order they are sent (30_encoding R98). -/
def bitIndexes : List (BitVec 3) := [0#3, 1#3, 2#3, 3#3, 4#3, 5#3, 6#3, 7#3]

/-- The sixteen OUT words of a byte (30_encoding R98). -/
def shift8Words (b : Byte) : List PinWord :=
  bitIndexes.flatMap fun k => [pinSetupWord (dataBit b k), pinClockWord (dataBit b k)]

/-- The byte whose DIN bits stand, most significant first, at the rising edges of sixteen OUT words. -/
def byteOfWords (ws : List PinWord) : Byte :=
  let din := fun j => lineHigh Config.DIN_BIT (ws.getD (2 * j + 1) 0#5)
  BitVec.ofNat 8
    (128 * (din 0).toNat + 64 * (din 1).toNat + 32 * (din 2).toNat + 16 * (din 3).toNat
      + 8 * (din 4).toNat + 4 * (din 5).toNat + 2 * (din 6).toNat + (din 7).toNat)

/-- The image offset of payload byte `i` (20_memory R62). -/
def payloadOffset (i : Word32) : Nat := Config.HEADER_BYTES + i.toNat

/-- The number of image bytes a header of length `l` speaks of: `8 + l` (20_memory R62, R64). -/
def imageSize (l : Word32) : Nat := Config.HEADER_BYTES + l.toNat

end Sys2Proof.Machine
end

