-- ==== Sys2Proof/Machine/Flags.lean ====
section
/-!
DEFINITION. The loader has no flags (10_state R34): every conditional operation tests a freshly read value in the step
that reads it. These are those tests, one definition each.
-/

namespace Sys2Proof.Machine

/-- V_MAGIC's test: all 32 bits equal MAGIC (41_load_and_validator R142). -/
def magicOk (magic : Word32) : Bool := magic == Config.MAGIC

/-- V_LEN's test, unsigned and inclusive (41_load_and_validator R143). -/
def lengthOk (length : Word32) : Bool := decide (length.toNat ≤ Config.MAX_LEN.toNat)

/-- W_INIT's and S_CHECK's test: IN bit 3 is 1 (30_encoding R97). -/
def initReady (v : PinWord) : Bool := lineHigh Config.INIT_B_BIT v

/-- P_SAMPLE's test: IN bit 2 is 1 (30_encoding R97). -/
def doneSeen (v : PinWord) : Bool := lineHigh Config.DONE_BIT v

/-- P_DEADLINE's test `t - T0 >= T_DONE_MS` on mathematical integers, written `t >= T0 + T_DONE_MS`
(44_completion_poll R204). -/
def deadlineElapsed (t0 t : Millis) : Bool := decide (t0.toNat + Config.T_DONE_MS ≤ t.toNat)

end Sys2Proof.Machine
end

