-- ==== Sys2Proof/Syntax.lean ====
section
/-!
DEFINITION. One constructor per row of spec/opcode_table.json (46 rows). The nineteen phases are what the sequencer
runs step by step; the other rows are the pseudo-operation SHIFT8, the headers the validator decodes, the pin words,
the result codes and the interface events (30_encoding R90).
-/

namespace Sys2Proof

/-- The operations of the loader, in the order of the opcode table. -/
inductive Instr where
  -- PHASE5 (30_encoding R99): the operation of each phase, no operands
  | idle
  | vMagic
  | vLen
  | dOe
  | rLow
  | rLowWait
  | rHigh
  | rHighWait
  | wInit
  | sFetch
  | sShift
  | sCheck
  | pAnchor
  | pSample
  | pFill
  | pDeadline
  | fComp
  | fIdle
  | xRet
  /-- SHIFT8(b), the sixteen shifting steps of the byte `b` (43_bit_shifter R184). -/
  | shift8 (b : Byte)
  /-- A valid header, by its length field (30_encoding R93). -/
  | imageHeader (length : Word32)
  /-- A header whose magic is wrong, with any length (41_load_and_validator R142). -/
  | hdrBadMagic (magic length : Word32)
  /-- A header with the right magic and a length above the bound (41_load_and_validator R143). -/
  | hdrTooLarge (length : Word32)
  -- PIN5 words written to OUT (30_encoding R95) and OE (30_encoding R96)
  | pinReset
  | pinIdle
  | pinSetup (d : Bool)
  | pinClock (d : Bool)
  | pinOe
  -- PIN5 words answered by IN, whole, with the bits the test ignores (30_encoding R97)
  | inInitReady (v : PinWord)
  | inInitNotReady (v : PinWord)
  | inDone (v : PinWord)
  | inNotDone (v : PinWord)
  -- RES3 (30_encoding R102)
  | resOk
  | resBadMagic
  | resImageTooLarge
  | resInitTimeout
  | resMidStreamAbort
  | resDoneTimeout
  -- EVT3 (30_encoding R103): the interface primitives and LOAD
  | evOe (m : PinWord)
  | evOut (v : PinWord)
  | evIn
  | evNow
  | evWait (us : Word32)
  | evRd (offset count : Nat)
  | evRet (c : Code3)
  | evLoad
  deriving DecidableEq, Repr

end Sys2Proof
end

