-- ==== Sys2Proof/WellFormed.lean ====
section
/-!
DEFINITION. Which terms of Instr stand for a row of the opcode table: the legal values of each format
(30_encoding R93, R95, R96, R97, R102, R104; 20_memory R62, R70, R77).
-/

namespace Sys2Proof

/-- The reads of the image space that an operation of the loader makes: four bytes at offset 0 or 4, one payload byte
(20_memory R70, R77). -/
def legalRead (offset count : Nat) : Bool :=
  (count == 4 && (offset == 0 || offset == 4))
    || (count == 1 && decide (Config.HEADER_BYTES ≤ offset)
        && decide (offset < Config.HEADER_BYTES + Config.MAX_LEN.toNat))

/-- Well-formed instructions. A row whose operands the table restricts is checked; every other term is well formed. -/
def Instr.wellFormed : Instr → Bool
  | .imageHeader l => Machine.lengthOk l
  | .hdrBadMagic m _ => !Machine.magicOk m
  | .hdrTooLarge l => !Machine.lengthOk l
  | .inInitReady v => Machine.initReady v
  | .inInitNotReady v => !Machine.initReady v
  | .inDone v => Machine.doneSeen v
  | .inNotDone v => !Machine.doneSeen v
  | .evOe m => m == Config.OE_MASK
  | .evOut v => Machine.outWords.contains v
  | .evRd o n => legalRead o n
  | .evRet c => decide (c.toNat ≤ 5)
  | .idle | .vMagic | .vLen | .dOe | .rLow | .rLowWait | .rHigh | .rHighWait | .wInit | .sFetch | .sShift
  | .sCheck | .pAnchor | .pSample | .pFill | .pDeadline | .fComp | .fIdle | .xRet => true
  | .shift8 _ => true
  | .pinReset | .pinIdle | .pinSetup _ | .pinClock _ | .pinOe => true
  | .resOk | .resBadMagic | .resImageTooLarge | .resInitTimeout | .resMidStreamAbort | .resDoneTimeout => true
  | .evIn | .evNow | .evWait _ | .evLoad => true

end Sys2Proof
end

