-- ==== Sys2Proof/Decode.lean ====
section
/-!
DEFINITION. Numeric codes, decoding and encoding of every format of 30_encoding. The formats overlap as numbers (0x00
is IDLE, PIN_RESET, RES_Ok and EV_OE), so an encoded word carries the place it stands in; the sequencer itself decodes
PHASE5 (the PHASE register), HDR64 (the image header) and the IN words.
-/

namespace Sys2Proof

/-- The nineteen phases in code order (30_encoding R99). -/
def Phase.all : List Phase :=
  [.idle, .vMagic, .vLen, .dOe, .rLow, .rLowWait, .rHigh, .rHighWait, .wInit, .sFetch, .sShift, .sCheck,
   .pAnchor, .pSample, .pFill, .pDeadline, .fComp, .fIdle, .xRet]

/-- The code of a phase (30_encoding R99). -/
def Phase.code : Phase → PhaseCode
  | .idle => 0x00#5
  | .vMagic => 0x01#5
  | .vLen => 0x02#5
  | .dOe => 0x03#5
  | .rLow => 0x04#5
  | .rLowWait => 0x05#5
  | .rHigh => 0x06#5
  | .rHighWait => 0x07#5
  | .wInit => 0x08#5
  | .sFetch => 0x09#5
  | .sShift => 0x0A#5
  | .sCheck => 0x0B#5
  | .pAnchor => 0x0C#5
  | .pSample => 0x0D#5
  | .pFill => 0x0E#5
  | .pDeadline => 0x0F#5
  | .fComp => 0x10#5
  | .fIdle => 0x11#5
  | .xRet => 0x12#5

/-- The phase a code stands for; 0x13 to 0x1F stand for none (30_encoding R104). -/
def Phase.ofCode (c : PhaseCode) : Option Phase := Phase.all.find? fun p => p.code == c

/-- The one operation each phase performs (30_encoding R99). -/
def Phase.instr : Phase → Instr
  | .idle => .idle
  | .vMagic => .vMagic
  | .vLen => .vLen
  | .dOe => .dOe
  | .rLow => .rLow
  | .rLowWait => .rLowWait
  | .rHigh => .rHigh
  | .rHighWait => .rHighWait
  | .wInit => .wInit
  | .sFetch => .sFetch
  | .sShift => .sShift
  | .sCheck => .sCheck
  | .pAnchor => .pAnchor
  | .pSample => .pSample
  | .pFill => .pFill
  | .pDeadline => .pDeadline
  | .fComp => .fComp
  | .fIdle => .fIdle
  | .xRet => .xRet

/-- The code of a result kind (30_encoding R102). -/
def Kind.code : Kind → Code3
  | .ok => 0#3
  | .badMagic => 1#3
  | .imageTooLarge => 2#3
  | .initTimeout => 3#3
  | .midStreamAbort => 4#3
  | .doneTimeout => 5#3

/-- The row of the table that names a result kind (30_encoding R102). -/
def Kind.instr : Kind → Instr
  | .ok => .resOk
  | .badMagic => .resBadMagic
  | .imageTooLarge => .resImageTooLarge
  | .initTimeout => .resInitTimeout
  | .midStreamAbort => .resMidStreamAbort
  | .doneTimeout => .resDoneTimeout

/-- The kind of a result code; 6 and 7 are reserved (30_encoding R102). -/
def Kind.ofCode (c : Code3) : Option Kind :=
  [Kind.ok, .badMagic, .imageTooLarge, .initTimeout, .midStreamAbort, .doneTimeout].find? fun k => k.code == c

/-- An encoded word together with the place it stands in, which says how it is read. -/
inductive Code where
  /-- The PHASE register (30_encoding R99). -/
  | phase5 (w : PhaseCode)
  /-- The image header (30_encoding R91). -/
  | hdr64 (w : BitVec 64)
  /-- An OUT word written by R_LOW, R_HIGH or F_IDLE (30_encoding R95). -/
  | outLevel (w : PinWord)
  /-- An OUT word written by a shifting step (30_encoding R95). -/
  | outBit (w : PinWord)
  /-- The OE word (30_encoding R96). -/
  | oe (w : PinWord)
  /-- An IN word read by W_INIT or S_CHECK (30_encoding R97). -/
  | inInit (w : PinWord)
  /-- An IN word read by P_SAMPLE (30_encoding R97). -/
  | inDone (w : PinWord)
  /-- A result code (30_encoding R102). -/
  | res3 (w : Code3)
  /-- The call of a primitive, or LOAD: the event's tag with the operands of its rule (30_encoding R103;
  40_interface_primitives R120 to R126: `In()` and `Now()` have none, `MemRead` an offset and a count). The event as a
  trace has it, with the payload answered, is encoded in Machine/Trace.lean. -/
  | evt3 (tag : Code3) (operands : List Nat)
  /-- The sixteen OUT words of SHIFT8 (30_encoding R98). -/
  | outWords (ws : List PinWord)
  deriving DecidableEq, Repr

/-- Why a word is no instruction. -/
inductive DecodeError where
  /-- PHASE codes 0x13 to 0x1F (30_encoding R104). -/
  | phaseReserved (w : PhaseCode)
  /-- An OUT word not in 30_encoding R95, or one its writer never writes (30_encoding R104). -/
  | outWordNeverWritten (w : PinWord)
  /-- An OE word other than 0x13 (30_encoding R104). -/
  | oeWordNeverWritten (w : PinWord)
  /-- Result codes 6 and 7 (30_encoding R104). -/
  | resultReserved (w : Code3)
  /-- Operands an event row does not have, or that do not fit it (30_encoding R103). -/
  | eventOperands (tag : Code3)
  /-- Words that are not the sixteen words of any byte (30_encoding R98). -/
  | notSixteenWords
  /-- A byte with bits above the format's width, or a wrong number of bytes (30_encoding R105). -/
  | badWidth
  deriving DecidableEq, Repr

/-- Decoding of the call of a primitive: the tag of 30_encoding R103 and the operands of its rule, within their widths. -/
def decodeEvent (tag : Code3) (operands : List Nat) : Except DecodeError Instr :=
  match tag.toNat, operands with
  | 0, [m] =>
    if m < 32 then
      if BitVec.ofNat 5 m = Config.OE_MASK then .ok (.evOe (BitVec.ofNat 5 m))
      else .error (.oeWordNeverWritten (BitVec.ofNat 5 m))
    else .error (.eventOperands tag)
  | 1, [v] =>
    if v < 32 then
      if Machine.outWords.contains (BitVec.ofNat 5 v) then .ok (.evOut (BitVec.ofNat 5 v))
      else .error (.outWordNeverWritten (BitVec.ofNat 5 v))
    else .error (.eventOperands tag)
  | 2, [] => .ok .evIn
  | 3, [] => .ok .evNow
  | 4, [n] => if n < 2 ^ 32 then .ok (.evWait (BitVec.ofNat 32 n)) else .error (.eventOperands tag)
  | 5, [o, n] => if legalRead o n then .ok (.evRd o n) else .error (.eventOperands tag)
  | 6, [c] => if c ≤ 5 then .ok (.evRet (BitVec.ofNat 3 c)) else .error (.eventOperands tag)
  | 7, [] => .ok .evLoad
  | _, _ => .error (.eventOperands tag)

/-- Decoding, total: the instruction a word stands for in its place, or why it is none (30_encoding R91 to R104). -/
def decode : Code → Except DecodeError Instr
  | .phase5 w =>
    match Phase.ofCode w with
    | some p => .ok p.instr
    | none => .error (.phaseReserved w)
  | .hdr64 h =>
    if Machine.magicOk (Machine.headerMagic h) then
      if Machine.lengthOk (Machine.headerLength h) then .ok (.imageHeader (Machine.headerLength h))
      else .ok (.hdrTooLarge (Machine.headerLength h))
    else .ok (.hdrBadMagic (Machine.headerMagic h) (Machine.headerLength h))
  | .outLevel w =>
    if w = Machine.pinResetWord then .ok .pinReset
    else if w = Machine.pinIdleWord then .ok .pinIdle
    else .error (.outWordNeverWritten w)
  | .outBit w =>
    if w = Machine.pinSetupWord (Machine.lineHigh Config.DIN_BIT w) then
      .ok (.pinSetup (Machine.lineHigh Config.DIN_BIT w))
    else if w = Machine.pinClockWord (Machine.lineHigh Config.DIN_BIT w) then
      .ok (.pinClock (Machine.lineHigh Config.DIN_BIT w))
    else .error (.outWordNeverWritten w)
  | .oe w => if w = Config.OE_MASK then .ok .pinOe else .error (.oeWordNeverWritten w)
  | .inInit v => if Machine.initReady v then .ok (.inInitReady v) else .ok (.inInitNotReady v)
  | .inDone v => if Machine.doneSeen v then .ok (.inDone v) else .ok (.inNotDone v)
  | .res3 c =>
    match Kind.ofCode c with
    | some k => .ok k.instr
    | none => .error (.resultReserved c)
  | .evt3 tag operands => decodeEvent tag operands
  | .outWords ws =>
    if ws = Machine.shift8Words (Machine.byteOfWords ws) then .ok (.shift8 (Machine.byteOfWords ws))
    else .error .notSixteenWords

/-- Encoding: the word of an instruction, written from the same tables (30_encoding R91 to R103). -/
def encode : Instr → Code
  | .idle => .phase5 0x00#5
  | .vMagic => .phase5 0x01#5
  | .vLen => .phase5 0x02#5
  | .dOe => .phase5 0x03#5
  | .rLow => .phase5 0x04#5
  | .rLowWait => .phase5 0x05#5
  | .rHigh => .phase5 0x06#5
  | .rHighWait => .phase5 0x07#5
  | .wInit => .phase5 0x08#5
  | .sFetch => .phase5 0x09#5
  | .sShift => .phase5 0x0A#5
  | .sCheck => .phase5 0x0B#5
  | .pAnchor => .phase5 0x0C#5
  | .pSample => .phase5 0x0D#5
  | .pFill => .phase5 0x0E#5
  | .pDeadline => .phase5 0x0F#5
  | .fComp => .phase5 0x10#5
  | .fIdle => .phase5 0x11#5
  | .xRet => .phase5 0x12#5
  | .shift8 b => .outWords (Machine.shift8Words b)
  | .imageHeader l => .hdr64 (Machine.headerWord Config.MAGIC l)
  | .hdrBadMagic m l => .hdr64 (Machine.headerWord m l)
  | .hdrTooLarge l => .hdr64 (Machine.headerWord Config.MAGIC l)
  | .pinReset => .outLevel Machine.pinResetWord
  | .pinIdle => .outLevel Machine.pinIdleWord
  | .pinSetup d => .outBit (Machine.pinSetupWord d)
  | .pinClock d => .outBit (Machine.pinClockWord d)
  | .pinOe => .oe Config.OE_MASK
  | .inInitReady v => .inInit v
  | .inInitNotReady v => .inInit v
  | .inDone v => .inDone v
  | .inNotDone v => .inDone v
  | .resOk => .res3 0#3
  | .resBadMagic => .res3 1#3
  | .resImageTooLarge => .res3 2#3
  | .resInitTimeout => .res3 3#3
  | .resMidStreamAbort => .res3 4#3
  | .resDoneTimeout => .res3 5#3
  | .evOe m => .evt3 0#3 [m.toNat]
  | .evOut v => .evt3 1#3 [v.toNat]
  | .evIn => .evt3 2#3 []
  | .evNow => .evt3 3#3 []
  | .evWait us => .evt3 4#3 [us.toNat]
  | .evRd o n => .evt3 5#3 [o, n]
  | .evRet c => .evt3 6#3 [c.toNat]
  | .evLoad => .evt3 7#3 []

/-- Whether a word is one of the legal words of its format (30_encoding R93, R95, R96, R99, R102, R103, R104). -/
def Code.legal : Code → Bool
  | .phase5 w => decide (w.toNat ≤ 0x12)
  | .hdr64 _ => true
  | .outLevel w => Machine.outWords.contains w && !Machine.lineHigh Config.CCLK_BIT w
  | .outBit w => Machine.outWords.contains w && Machine.lineHigh Config.PROGRAM_B_BIT w
  | .oe w => w == Config.OE_MASK
  | .inInit _ => true
  | .inDone _ => true
  | .res3 c => decide (c.toNat ≤ 5)
  | .evt3 _ operands => decide (operands.length ≤ 2)
  | .outWords ws =>
    decide (ws.length = 16)
      && ws.all fun w => Machine.outWords.contains w && Machine.lineHigh Config.PROGRAM_B_BIT w

/-- The formats that are laid out in bytes; event tags are not (30_encoding R103: "the hardware has no such field"). -/
inductive Format where
  | phase5 | hdr64 | outLevel | outBit | oe | inInit | inDone | res3 | outWords
  deriving DecidableEq, Repr

/-- A five-bit word in a byte; bits above the width must be 0. -/
def pinOfByte (b : Byte) : Option PinWord := if b.toNat < 32 then some (b.setWidth 5) else none

/-- The encoded word that bytes hold in a format: one byte for a narrow word, eight big-endian bytes for a header
(20_memory R67), sixteen bytes for the words of SHIFT8. -/
def codeOfBytes (f : Format) (bytes : List Byte) : Except DecodeError Code :=
  match f, bytes with
  | .hdr64, [b0, b1, b2, b3, b4, b5, b6, b7] =>
    .ok (.hdr64 (Machine.headerWord (Machine.be32 b0 b1 b2 b3) (Machine.be32 b4 b5 b6 b7)))
  | .res3, [b] => if b.toNat < 8 then .ok (.res3 (b.setWidth 3)) else .error .badWidth
  | .outWords, bs =>
    match bs.mapM pinOfByte with
    | some ws => .ok (.outWords ws)
    | none => .error .badWidth
  | f, [b] =>
    match pinOfByte b with
    | none => .error .badWidth
    | some w =>
      match f with
      | .phase5 => .ok (.phase5 w)
      | .outLevel => .ok (.outLevel w)
      | .outBit => .ok (.outBit w)
      | .oe => .ok (.oe w)
      | .inInit => .ok (.inInit w)
      | .inDone => .ok (.inDone w)
      | .hdr64 | .res3 | .outWords => .error .badWidth
  | _, _ => .error .badWidth

/-- Decoding of bytes, total: the instruction they hold in a format, or why none. -/
def decodeBytes (f : Format) (bytes : List Byte) : Except DecodeError Instr :=
  match codeOfBytes f bytes with
  | .ok c => decode c
  | .error e => .error e

/-- The bytes of a word of `nbits` bits, least significant byte first. -/
def littleBytes (nbytes w : Nat) : List Byte :=
  (List.range nbytes).map fun k => BitVec.ofNat 8 (w / 2 ^ (8 * k))

/-- What the decoder reads from a word numbered as the opcode table numbers it. A word of up to eight bits is the
PHASE5 code the sequencer takes its next operation from; 64 bits are the image header, one big-endian word; 128 bits
are the sixteen words of SHIFT8, one byte each (log 13). -/
def decodeTableWord (nbits w : Nat) : Option Instr :=
  if nbits ≤ 8 then
    if w < 256 then (decodeBytes .phase5 [BitVec.ofNat 8 w]).toOption else none
  else if nbits = 64 then (decodeBytes .hdr64 (littleBytes 8 w).reverse).toOption
  else if nbits = 128 then (decodeBytes .outWords (littleBytes 16 w)).toOption
  else none

end Sys2Proof
end

