-- ==== Sys2Proof/Machine/State.lean ====
section
/-!
DEFINITION. The state of the loader (10_state R20), the parameters of a run that the spec leaves to the platform and
the environment (10_state R39), and the model's own record of a run (00_scope R10). Plain data throughout.
-/

namespace Sys2Proof.Machine

/-- The session registers (10_state R23), as names for `Fault.noValue`. -/
inductive SessionReg where
  | len | idx | sh | t0 | result
  deriving DecidableEq, Repr

/-- One interface event, as 00_scope R10 writes it; its tag and payload of 30_encoding R103 are in Machine/Trace.lean. -/
inductive Event where
  | oe (mask : PinWord)
  | out (value : PinWord)
  /-- `IN->hh`, with the word answered. -/
  | inp (answer : PinWord)
  /-- `NOW->t`, with the count answered. -/
  | now (answer : Millis)
  | wait (us : Word32)
  /-- `RD o,n->hex`: the bytes answered; n is their number. -/
  | rd (offset : Nat) (bytes : List Byte)
  | ret (code : Code3)
  | load
  deriving DecidableEq, Repr

/-- What the host does at one step (70_reset_and_hazards R269): nothing, LOAD, or block reset. DESIGN CHOICE, unsafe
(log 16): there is no input by which another agent writes OE or OUT between loads, which R265 and R278 leave open.
DESIGN CHOICE, unsafe (log 17): there is none by which the host places another image between RET and the next LOAD,
which R264 leaves open, so the image is the same for all loads of a run. -/
inductive HostInput where
  | quiet
  | load
  | blockReset
  deriving DecidableEq, Repr

/-- Why the machine stops with a fault. -/
inductive Fault where
  /-- Raised by step when PHASE holds 0x13 to 0x1F: "a state with such a PHASE has no step (stuck)" (30_encoding R104).
  Safe: the model stops. -/
  | stuckPhase (code : PhaseCode)
  /-- Raised by an operation that reads a session register holding no value (10_state R37: "a model faults on it").
  Safe: the model stops. -/
  | noValue (reg : SessionReg)
  deriving DecidableEq, Repr

/-- Why the model gives a step no meaning. -/
inductive Refusal where
  /-- Raised by exec for an instruction without a meaning. Safe: the model stops. -/
  | notModelled (mnemonic : String)
  /-- Raised by step and EV_LOAD for a LOAD while a load is in progress (93_implementation_defined U1: "refuse").
  Safe: the model stops. -/
  | overlappingLoad
  /-- Raised by V_MAGIC, V_LEN, S_FETCH and EV_RD for a read beyond the readable extent (20_memory R64,
  93_implementation_defined U2: "refuse"). Safe: the model stops. -/
  | imageBeyondExtent (offset : Nat)
  /-- Raised by P_ANCHOR, P_DEADLINE and EV_NOW for an answer below an earlier one of the same load
  (93_implementation_defined U4: "refuse"). Safe: the model stops. -/
  | timeWentBackwards (answer : Millis)
  /-- Raised by EV_OUT and EV_OE for a word the loader never writes (30_encoding R104: "a model refuses it").
  Safe: the model stops. -/
  | pinWordNeverWritten (word : PinWord)
  deriving DecidableEq, Repr

/-- The state. `none` in a session register is the spec's "no value" (10_state R36, R37). -/
structure State where
  /-- PHASE, the program counter (10_state R21). -/
  phase : PhaseCode
  /-- BITCNT (10_state R22). -/
  bitcnt : BitVec 3
  /-- HALF, `true` for 1 (10_state R22). -/
  half : Bool
  /-- LEN (10_state R24). -/
  len : Option Word32
  /-- IDX (10_state R25). -/
  idx : Option Word32
  /-- SH (10_state R26). -/
  sh : Option Byte
  /-- T0 (10_state R27). -/
  t0 : Option Millis
  /-- RESULT (10_state R28). -/
  result : Option Code3
  /-- OE (10_state R29). -/
  oe : PinWord
  /-- OUT (10_state R30). -/
  out : PinWord
  /-- IMAGE_BASE, a parameter of the run (00_scope R5). -/
  imageBase : Nat
  /-- IMAGE_EXTENT, a parameter of the run (00_scope R5, 20_memory R64). -/
  imageExtent : Nat
  /-- The image space as (address, byte) pairs in canonical form (20_memory R61); see Machine/Memory.lean. -/
  mem : List Host.Cell
  /-- What the host does at the coming steps, one entry a step; when it is empty the host does nothing. -/
  host : List HostInput
  /-- The coming answers of `In()` (10_state R39); when it is empty an answer is the free value Config.freeIn. -/
  ins : List PinWord
  /-- The coming answers of `Now()` (10_state R39); when it is empty an answer is the free value Config.freeNow. -/
  nows : List Millis
  /-- The model's own: how many free values `In()` has taken. -/
  inDraws : Nat
  /-- The model's own: how many free values `Now()` has taken. -/
  nowDraws : Nat
  /-- The model's own: the latest answer of `Now()` in this load, for the contract of 40_interface_primitives R124. -/
  lastNow : Option Millis
  /-- The model's own: the event trace, oldest event first (00_scope R10). -/
  trace : List Event
  deriving DecidableEq, Repr

/-- The machine right after block reset (10_state R35, 70_reset_and_hazards R260), before anything has been placed from
outside: the parameters at the values log 2 names, no inputs, no events. -/
def State.reset : State where
  phase := 0x00#5
  bitcnt := 0#3
  half := false
  len := none
  idx := none
  sh := none
  t0 := none
  result := none
  oe := 0x00#5
  out := 0x00#5
  imageBase := Config.RESET_IMAGE_BASE
  imageExtent := Config.RESET_IMAGE_EXTENT
  mem := []
  host := []
  ins := []
  nows := []
  inDraws := 0
  nowDraws := 0
  lastNow := none
  trace := []

/-- The outcome of an instruction or a step. -/
abbrev Result := Host.Outcome State Fault Refusal

end Sys2Proof.Machine
end

