-- ==== Sys2Proof/Machine/Memory.lean ====
section
/-!
DEFINITION. The image space (20_memory R61): a byte-addressed, read-only region as a list of (address, byte) pairs in
one canonical form: addresses strictly rising, and no entry equal to what an unlisted address reads as. The loader has
no operation that writes it (20_memory R63); `Memory.write` is how an image is placed from outside (70 R264).
-/

namespace Sys2Proof.Machine

/-- What an address that nothing has been placed at reads as. DESIGN CHOICE, unsafe (log 2). -/
def Memory.unlisted : Byte := 0x00#8

/-- Whether every listed address is at least `lo`, addresses rise strictly and no entry is an unlisted byte. -/
def Memory.wfFrom (lo : Nat) : List Host.Cell → Bool
  | [] => true
  | (a, b) :: rest => decide (lo ≤ a) && b != Memory.unlisted && Memory.wfFrom (a + 1) rest

/-- The canonical form. -/
def Memory.wf (m : List Host.Cell) : Bool := Memory.wfFrom 0 m

/-- The byte at an address. -/
def Memory.read : List Host.Cell → Nat → Byte
  | [], _ => Memory.unlisted
  | (a, b) :: rest, x => if x = a then b else Memory.read rest x

/-- Drops the entry of an address. -/
def Memory.erase : List Host.Cell → Nat → List Host.Cell
  | [], _ => []
  | (a, b) :: rest, x => if x = a then rest else (a, b) :: Memory.erase rest x

/-- Lists a byte at an address, in address order. -/
def Memory.insert : List Host.Cell → Nat → Byte → List Host.Cell
  | [], x, v => [(x, v)]
  | (a, b) :: rest, x, v =>
    if x < a then (x, v) :: (a, b) :: rest
    else if x = a then (x, v) :: rest
    else (a, b) :: Memory.insert rest x v

/-- Places a byte, keeping the canonical form. -/
def Memory.write (m : List Host.Cell) (x : Nat) (v : Byte) : List Host.Cell :=
  if v = Memory.unlisted then Memory.erase m x else Memory.insert m x v

/-- Places bytes at ascending addresses. -/
def Memory.writeBytes (m : List Host.Cell) (x : Nat) : List Byte → List Host.Cell
  | [] => m
  | v :: vs => Memory.writeBytes (Memory.write m x v) (x + 1) vs

/-- `n` bytes at ascending addresses, as `MemRead(addr, n)` returns them (40_interface_primitives R123). -/
def Memory.readBytes (m : List Host.Cell) (x : Nat) : Nat → List Byte
  | 0 => []
  | n + 1 => Memory.read m x :: Memory.readBytes m (x + 1) n

end Sys2Proof.Machine
end

