-- ==== Sys2Proof/Machine/Ops.lean ====
section
/-!
DEFINITION. The operations the meanings share: the interface primitives (40_interface_primitives R120 to R126), the
failure entry `raise` and the return (60_exceptions R236, R240), the start of a session (10_state R36), block reset
(70_reset_and_hazards R260) and the shifting step (43_bit_shifter R183).
-/

namespace Sys2Proof.Machine

/-- Records an interface event (00_scope R10). -/
def emit (e : Event) (s : State) : State := { s with trace := s.trace ++ [e] }

/-- `PHASE <- p` (00_scope R9). -/
def goto (p : Phase) (s : State) : State := { s with phase := p.code }

/-- `Oe(m)` (40_interface_primitives R120). -/
def writeOe (m : PinWord) (s : State) : State := emit (.oe m) { s with oe := m }

/-- `Out(v)` (40_interface_primitives R121). -/
def writeOut (v : PinWord) (s : State) : State := emit (.out v) { s with out := v }

/-- The word the environment answers to the next `In()` (40_interface_primitives R122): the next one placed, else a
free value. -/
def inAnswer (s : State) : PinWord :=
  match s.ins with
  | v :: _ => v
  | [] => Config.freeIn s.inDraws

/-- Uses up the answer of an `In()`. -/
def dropIn (s : State) : State :=
  match s.ins with
  | _ :: vs => { s with ins := vs }
  | [] => { s with inDraws := s.inDraws + 1 }

/-- `In()` as it changes the model's state: the answer used up and the event recorded; the loader stores nothing of it
(10_state R31). -/
def takeIn (s : State) : State := emit (.inp (inAnswer s)) (dropIn s)

/-- The count the environment answers to the next `Now()` (40_interface_primitives R124): the next one placed, else a
free value, raised to the latest answer of the load where it lies below it ("a draw constrained only by
monotonicity"). -/
def nowAnswer (s : State) : Millis :=
  match s.nows with
  | t :: _ => t
  | [] =>
    match s.lastNow with
    | none => Config.freeNow s.nowDraws
    | some l => if Config.freeNow s.nowDraws < l then l else Config.freeNow s.nowDraws

/-- Whether the next answer of `Now()` keeps the monotonic contract (40_interface_primitives R124). A free value always
does. -/
def nowInContract (s : State) : Bool :=
  match s.nows, s.lastNow with
  | t :: _, some l => decide (l ≤ t)
  | _, _ => true

/-- Uses up the answer of a `Now()`. -/
def dropNow (s : State) : State :=
  match s.nows with
  | _ :: ts => { s with nows := ts, lastNow := some (nowAnswer s) }
  | [] => { s with nowDraws := s.nowDraws + 1, lastNow := some (nowAnswer s) }

/-- `Now()` as it changes the model's state. -/
def takeNow (s : State) : State := emit (.now (nowAnswer s)) (dropNow s)

/-- `t <- Now()`, then `k t`; a run whose answers go backwards is refused (93_implementation_defined U4). -/
def withNow (s : State) (k : Millis → State → Result) : Result :=
  if nowInContract s then k (nowAnswer s) (takeNow s) else .refused (.timeWentBackwards (nowAnswer s))

/-- `Wait(n)` changes no state of the loader (40_interface_primitives R125). -/
def wait (us : Word32) (s : State) : State := emit (.wait us) s

/-- The bytes `MemRead(IMAGE_BASE + offset, n)` returns (40_interface_primitives R123). -/
def imageBytes (s : State) (offset n : Nat) : List Byte := Memory.readBytes s.mem (s.imageBase + offset) n

/-- `MemRead`, then `k` on the bytes; a read that needs more than the readable extent is refused (20_memory R64,
93_implementation_defined U2). `need` is the extent the read's operation relies on. -/
def withRead (s : State) (need offset n : Nat) (k : List Byte → State → Result) : Result :=
  if need ≤ s.imageExtent then k (imageBytes s offset n) (emit (.rd offset (imageBytes s offset n)) s)
  else .refused (.imageBeyondExtent offset)

/-- `RESULT <- code(kind); PHASE <- X_RET`: the result is produced and control goes to the exit
(44_completion_poll R206, 60_exceptions R236). -/
def finish (k : Kind) (s : State) : State := { s with result := some k.code, phase := Phase.xRet.code }

/-- `raise kind`, the loader's trap entry: it saves nothing and writes no pin register (60_exceptions R236). -/
def raise (k : Kind) (s : State) : State := finish k s

/-- `Ret(c); PHASE <- IDLE`, the return: nothing is restored, because nothing was saved (44_completion_poll R207,
60_exceptions R240). -/
def leave (c : Code3) (s : State) : State := goto .idle (emit (.ret c) s)

/-- LOAD accepted: a session begins (41_load_and_validator R140, 10_state R36). OE and OUT are not touched. -/
def startSession (s : State) : State :=
  emit .load
    { s with
      idx := some 0#32, bitcnt := 0#3, half := false, len := none, sh := none, t0 := none, result := none
      lastNow := none, phase := Phase.vMagic.code }

/-- Block reset (70_reset_and_hazards R260). The environment, the image and the trace are not the loader's state. -/
def blockReset (s : State) : State :=
  { s with
    phase := Phase.idle.code, bitcnt := 0#3, half := false, oe := 0x00#5, out := 0x00#5
    len := none, idx := none, sh := none, t0 := none, result := none, lastNow := none }

/-- W_INIT's decision on the answer `v` (42_reset_sequencer R166). -/
def decideInit (v : PinWord) (s : State) : State :=
  if initReady v then goto .sFetch s else raise .initTimeout s

/-- S_CHECK's decision on the answer `v` (43_bit_shifter R185). -/
def decideCheck (v : PinWord) (s : State) : State :=
  if initReady v then goto .sFetch s else raise .midStreamAbort s

/-- P_SAMPLE's decision on the answer `v`; SH gets the filler either way (44_completion_poll R202). -/
def decideDone (v : PinWord) (s : State) : State :=
  goto (if doneSeen v then .fComp else .pFill) { s with sh := some Config.FILLER }

/-- V_MAGIC's decision on the magic read (41_load_and_validator R142). -/
def decideMagic (magic : Word32) (s : State) : State :=
  if magicOk magic then goto .vLen s else raise .badMagic s

/-- V_LEN's decision on the length read (41_load_and_validator R143). -/
def decideLen (length : Word32) (s : State) : State :=
  if lengthOk length then goto .dOe { s with len := some length } else raise .imageTooLarge s

/-- The last half of a byte: the counters return to 0, a payload byte is counted, `PHASE <- next`
(43_bit_shifter R183). Counting reads IDX, and "an operation that reads" a register holding no value "has no meaning and
a model faults on it" (10_state R37). -/
def endByte (next : PhaseCode) (count : Bool) (s : State) : Result :=
  if count then
    match s.idx with
    | some i => .next { s with bitcnt := 0#3, idx := some (i + 1#32), phase := next }
    | none => .fault (.noValue .idx)
  else .next { s with bitcnt := 0#3, phase := next }

/-- The shifting step (43_bit_shifter R183), shared by S_SHIFT, P_FILL and F_COMP. It reads SH; a model faults where SH
holds no value (10_state R37, 93_implementation_defined U9). -/
def shiftStep (next : PhaseCode) (count : Bool) (s : State) : Result :=
  match s.sh with
  | none => .fault (.noValue .sh)
  | some b =>
    if s.half then
      if s.bitcnt = 7#3 then
        endByte next count { writeOut (pinClockWord (dataBit b s.bitcnt)) s with half := false }
      else
        .next { writeOut (pinClockWord (dataBit b s.bitcnt)) s with half := false, bitcnt := s.bitcnt + 1#3 }
    else .next { writeOut (pinSetupWord (dataBit b s.bitcnt)) s with half := true }

/-- `n` shifting steps in a row. -/
def shiftSteps (next : PhaseCode) (count : Bool) : Nat → State → Result
  | 0, s => .next s
  | n + 1, s =>
    match shiftStep next count s with
    | .next t => shiftSteps next count n t
    | .fault r => .fault r
    | .refused r => .refused r

/-- The `next` and `count` of the shifting phase a code names (43_bit_shifter R182, 44_completion_poll R203, R205); in
any other phase no successor is named and PHASE stays (00_scope R9; log 8). -/
def shiftTarget (phase : PhaseCode) : PhaseCode × Bool :=
  if phase = Phase.sShift.code then (Phase.sCheck.code, true)
  else if phase = Phase.pFill.code then (Phase.pDeadline.code, false)
  else if phase = Phase.fComp.code then (Phase.fIdle.code, false)
  else (phase, false)

/-- What drives a line, and at what level (10_state R32, 00_scope R8). -/
inductive LineLevel where
  /-- Driven by the loader at this level. -/
  | driven (high : Bool)
  /-- An output line whose driver is off: its level is the board's, which no source states. -/
  | undriven
  /-- DONE and INIT_B: the target's. -/
  | target
  deriving DecidableEq, Repr

/-- The level of line `k` (10_state R32). The lines of DONE and INIT_B are the target's whatever OE holds (log 15). -/
def lineLevel (s : State) (k : Fin 5) : LineLevel :=
  if lineHigh (Config.DONE_BIT ||| Config.INIT_B_BIT) (1#5 <<< k.val) then .target
  else if s.oe.getLsbD k then .driven (s.out.getLsbD k) else .undriven

/-- BUSY, the predicate `PHASE != IDLE` (10_state R42). -/
def busy (s : State) : Bool := s.phase != Phase.idle.code

end Sys2Proof.Machine
end

