-- ==== Sys2Proof/Machine/Events.lean ====
section
/-!
DEFINITION. The EVT3 rows of the opcode table: each interface primitive by itself (40_interface_primitives), and LOAD
(41_load_and_validator R140). A primitive names no successor, so PHASE stays (00_scope R9).
-/

namespace Sys2Proof.Machine

/-- EV_OE: `Oe(m)` (40_interface_primitives R120). A word other than 0x13 is refused (30_encoding R104). -/
def execEvOe (m : PinWord) (s : State) : Result :=
  if m = Config.OE_MASK then .next (writeOe m s) else .refused (.pinWordNeverWritten m)

/-- EV_OUT: `Out(v)` (40_interface_primitives R121). A word not in 30_encoding R95 is refused (30_encoding R104). -/
def execEvOut (v : PinWord) (s : State) : Result :=
  if outWords.contains v then .next (writeOut v s) else .refused (.pinWordNeverWritten v)

/-- EV_IN: `In()` (40_interface_primitives R122). -/
def execEvIn (s : State) : Result := .next (takeIn s)

/-- EV_NOW: `Now()` (40_interface_primitives R124). -/
def execEvNow (s : State) : Result := withNow s fun _ t => .next t

/-- EV_WAIT: `Wait(n)` (40_interface_primitives R125). -/
def execEvWait (us : Word32) (s : State) : Result := .next (wait us s)

/-- EV_RD: `MemRead(IMAGE_BASE + offset, count)` (40_interface_primitives R123). -/
def execEvRd (offset count : Nat) (s : State) : Result :=
  withRead s (offset + count) offset count fun _ t => .next t

/-- EV_RET: `Ret(c)` (40_interface_primitives R126). -/
def execEvRet (c : Code3) (s : State) : Result := .next (emit (.ret c) s)

/-- EV_LOAD: the LOAD event, accepted in IDLE only (41_load_and_validator R140; 93_implementation_defined U1). -/
def execEvLoad (s : State) : Result :=
  if busy s then .refused .overlappingLoad else .next (startSession s)

end Sys2Proof.Machine
end

