-- ==== Sys2Proof/Machine/PinWords.lean ====
section
/-!
DEFINITION. The PIN5 rows of the opcode table. An OUT or OE word is the writing of that word (30_encoding R95, R96;
log 10). An IN word is what the sampling operation of the present phase does with that answer (30_encoding R97); in a
phase that samples nothing, or another bit, it has no effect (10_state R31, 44_completion_poll R211; log 11).
-/

namespace Sys2Proof.Machine

/-- PIN_RESET (30_encoding R95). -/
def execPinReset (s : State) : Result := .next (writeOut pinResetWord s)

/-- PIN_IDLE (30_encoding R95). -/
def execPinIdle (s : State) : Result := .next (writeOut pinIdleWord s)

/-- PIN_SETUP(d) (30_encoding R95). -/
def execPinSetup (d : Bool) (s : State) : Result := .next (writeOut (pinSetupWord d) s)

/-- PIN_CLOCK(d) (30_encoding R95). -/
def execPinClock (d : Bool) (s : State) : Result := .next (writeOut (pinClockWord d) s)

/-- PIN_OE (30_encoding R96). -/
def execPinOe (s : State) : Result := .next (writeOe Config.OE_MASK s)

/-- The answer `v` where INIT_B is tested: by W_INIT and S_CHECK (30_encoding R97). -/
def answerInit (v : PinWord) (s : State) : State :=
  if s.phase = Phase.wInit.code then decideInit v (emit (.inp v) s)
  else if s.phase = Phase.sCheck.code then decideCheck v (emit (.inp v) s)
  else s

/-- The answer `v` where DONE is tested: by P_SAMPLE (30_encoding R97). -/
def answerDone (v : PinWord) (s : State) : State :=
  if s.phase = Phase.pSample.code then decideDone v (emit (.inp v) s) else s

/-- IN_INIT_READY (30_encoding R97). -/
def execInInitReady (v : PinWord) (s : State) : Result := .next (answerInit v s)

/-- IN_INIT_NOT_READY (30_encoding R97). -/
def execInInitNotReady (v : PinWord) (s : State) : Result := .next (answerInit v s)

/-- IN_DONE (30_encoding R97). -/
def execInDone (v : PinWord) (s : State) : Result := .next (answerDone v s)

/-- IN_NOT_DONE (30_encoding R97). -/
def execInNotDone (v : PinWord) (s : State) : Result := .next (answerDone v s)

end Sys2Proof.Machine
end

