-- ==== Sys2Proof/Machine/Poll.lean ====
section
/-!
DEFINITION. The completion poll with timeout, and the finish (44_completion_poll): P_ANCHOR, P_SAMPLE, P_FILL,
P_DEADLINE, F_COMP, F_IDLE, X_RET.
-/

namespace Sys2Proof.Machine

/-- P_ANCHOR: `T0 <- Now()` (44_completion_poll R201). -/
def execPAnchor (s : State) : Result :=
  withNow s fun t s1 => .next (goto .pSample { s1 with t0 := some t })

/-- P_SAMPLE: one sample of DONE; the filler goes into SH (44_completion_poll R202). -/
def execPSample (s : State) : Result := .next (decideDone (inAnswer s) (takeIn s))

/-- P_FILL: a shifting step of a poll filler (44_completion_poll R203). -/
def execPFill (s : State) : Result := shiftStep Phase.pDeadline.code false s

/-- P_DEADLINE: fail when `Now() - T0 >= T_DONE_MS` (44_completion_poll R204). It reads T0; a model faults where T0 holds
no value (10_state R37, 93_implementation_defined U9). -/
def execPDeadline (s : State) : Result :=
  match s.t0 with
  | none => .fault (.noValue .t0)
  | some t0 =>
    withNow s fun t s1 => .next (if deadlineElapsed t0 t then raise .doneTimeout s1 else goto .pSample s1)

/-- F_COMP: a shifting step of the compensation byte (44_completion_poll R205). -/
def execFComp (s : State) : Result := shiftStep Phase.fIdle.code false s

/-- F_IDLE: the lines back to the idle level, result Ok (44_completion_poll R206). -/
def execFIdle (s : State) : Result := .next (finish .ok (writeOut pinIdleWord s))

/-- X_RET: the result is handed to the host, the session is over (44_completion_poll R207). It reads RESULT; a model
faults where RESULT holds no value (10_state R37, 93_implementation_defined U9). -/
def execXRet (s : State) : Result :=
  match s.result with
  | none => .fault (.noValue .result)
  | some c => .next (leave c s)

end Sys2Proof.Machine
end

