-- ==== Sys2Proof/Machine/ResetSequencer.lean ====
section
/-!
DEFINITION. The program-reset sequencer (42_reset_sequencer): D_OE, R_LOW, R_LOW_WAIT, R_HIGH, R_HIGH_WAIT, W_INIT.
-/

namespace Sys2Proof.Machine

/-- D_OE: the three output lines are enabled; OUT is not written (42_reset_sequencer R161). -/
def execDOe (s : State) : Result := .next (goto .rLow (writeOe Config.OE_MASK s))

/-- R_LOW: PROGRAM_B, DIN and CCLK low (42_reset_sequencer R162). -/
def execRLow (s : State) : Result := .next (goto .rLowWait (writeOut pinResetWord s))

/-- R_LOW_WAIT: PROGRAM_B stays low across `Wait(1)` (42_reset_sequencer R163). -/
def execRLowWait (s : State) : Result := .next (goto .rHigh (wait Config.T_PROGRAM_US s))

/-- R_HIGH: reset released, the idle level (42_reset_sequencer R164). -/
def execRHigh (s : State) : Result := .next (goto .rHighWait (writeOut pinIdleWord s))

/-- R_HIGH_WAIT: one fixed `Wait(5000)`, not a poll (42_reset_sequencer R165). -/
def execRHighWait (s : State) : Result := .next (goto .wInit (wait Config.T_INIT_US s))

/-- W_INIT: one sample of INIT_B (42_reset_sequencer R166). -/
def execWInit (s : State) : Result := .next (decideInit (inAnswer s) (takeIn s))

end Sys2Proof.Machine
end

