-- ==== Sys2Proof/Machine/Results.lean ====
section
/-!
DEFINITION. The RES3 rows of the opcode table: the result of that code is produced, so RESULT holds it and control goes
to X_RET (30_encoding R102, 60_exceptions R236; log 12).
-/

namespace Sys2Proof.Machine

/-- RES_Ok: what F_IDLE produces (44_completion_poll R206). -/
def execResOk (s : State) : Result := .next (finish .ok s)

/-- RES_BadMagic: `raise BadMagic` (60_exceptions R231). -/
def execResBadMagic (s : State) : Result := .next (raise .badMagic s)

/-- RES_ImageTooLarge: `raise ImageTooLarge` (60_exceptions R232). -/
def execResImageTooLarge (s : State) : Result := .next (raise .imageTooLarge s)

/-- RES_InitTimeout: `raise InitTimeout` (60_exceptions R233). -/
def execResInitTimeout (s : State) : Result := .next (raise .initTimeout s)

/-- RES_MidStreamAbort: `raise MidStreamAbort` (60_exceptions R234). -/
def execResMidStreamAbort (s : State) : Result := .next (raise .midStreamAbort s)

/-- RES_DoneTimeout: `raise DoneTimeout` (60_exceptions R235). -/
def execResDoneTimeout (s : State) : Result := .next (raise .doneTimeout s)

end Sys2Proof.Machine
end

