-- ==== Sys2Proof/Machine/Shifter.lean ====
section
/-!
DEFINITION. The bitstream bit shifter with INIT_B monitor (43_bit_shifter): S_FETCH, S_SHIFT, S_CHECK and the
pseudo-operation SHIFT8. The shifting step itself is Ops.shiftStep.
-/

namespace Sys2Proof.Machine

/-- S_FETCH: on to the poll after the last payload byte, else payload byte IDX into SH (43_bit_shifter R181). It
reads IDX and LEN; a model faults where one holds no value (10_state R37, 93_implementation_defined U9). -/
def execSFetch (s : State) : Result :=
  match s.idx, s.len with
  | some i, some l =>
    if i = l then .next (goto .pAnchor s)
    else
      withRead s (payloadOffset i + 1) (payloadOffset i) 1 fun bytes t =>
        .next (goto .sShift { t with sh := some (bytes.headD 0#8) })
  | none, _ => .fault (.noValue .idx)
  | some _, none => .fault (.noValue .len)

/-- S_SHIFT: a shifting step of a payload byte (43_bit_shifter R182). -/
def execSShift (s : State) : Result := shiftStep Phase.sCheck.code true s

/-- S_CHECK: one sample of INIT_B after a payload byte (43_bit_shifter R185). -/
def execSCheck (s : State) : Result := .next (decideCheck (inAnswer s) (takeIn s))

/-- SHIFT8(b): sixteen shifting steps for `SH == b` from `BITCNT == 0, HALF == 0`, with the successor of the shifting
phase the loader is in (43_bit_shifter R184; log 8). -/
def execShift8 (b : Byte) (s : State) : Result :=
  shiftSteps (shiftTarget s.phase).1 (shiftTarget s.phase).2 16
    { s with sh := some b, bitcnt := 0#3, half := false }

end Sys2Proof.Machine
end

