-- ==== Sys2Proof/Machine/Validator.lean ====
section
/-!
DEFINITION. The LOAD command and the image validator (41_load_and_validator): IDLE, V_MAGIC, V_LEN, and the header rows
of the opcode table, which are what the validator does with a header of that form.
-/

namespace Sys2Proof.Machine

/-- IDLE (41_load_and_validator R140): on LOAD a session begins, otherwise the loader stays in IDLE. -/
def execIdle (s : State) : Result :=
  .next (if s.host.head? = some .load then startSession s else s)

/-- V_MAGIC (41_load_and_validator R142). A LOAD with less than the header readable has no V_MAGIC step
(93_implementation_defined U2). -/
def execVMagic (s : State) : Result :=
  withRead s Config.HEADER_BYTES 0 4 fun bytes t => .next (decideMagic (be32OfBytes bytes) t)

/-- V_LEN (41_load_and_validator R143). -/
def execVLen (s : State) : Result :=
  withRead s Config.HEADER_BYTES 4 4 fun bytes t => .next (decideLen (be32OfBytes bytes) t)

/-- V_LEN's part of a header the operand gives. -/
def validateLen (length : Word32) (s : State) : State :=
  decideLen length (emit (.rd 4 ((headerBytes (headerWord 0#32 length)).drop 4)) s)

/-- What the validator does with a header of this magic and length from the phase it is in: V_MAGIC and then V_LEN from
V_MAGIC, V_LEN alone from V_LEN, nothing in a phase that reads no header (30_encoding R91 to R93; log 9). DESIGN CHOICE
(log 9): the header is the operand, so the readable extent is not asked and the read events are made with fewer than 8
bytes readable too, where the phases V_MAGIC and V_LEN have no step (20_memory R64, 93_implementation_defined U2). -/
def validateHeader (magic length : Word32) (s : State) : State :=
  if s.phase = Phase.vMagic.code then
    let t := decideMagic magic (emit (.rd 0 ((headerBytes (headerWord magic length)).take 4)) s)
    if magicOk magic then validateLen length t else t
  else if s.phase = Phase.vLen.code then validateLen length s
  else s

/-- IMAGE_HEADER: a valid header (30_encoding R93). -/
def execImageHeader (length : Word32) (s : State) : Result := .next (validateHeader Config.MAGIC length s)

/-- HDR_BAD_MAGIC: a header with a wrong magic (41_load_and_validator R142). -/
def execHdrBadMagic (magic length : Word32) (s : State) : Result := .next (validateHeader magic length s)

/-- HDR_TOO_LARGE: a header with the right magic and a length above the bound (41_load_and_validator R143). -/
def execHdrTooLarge (length : Word32) (s : State) : Result := .next (validateHeader Config.MAGIC length s)

end Sys2Proof.Machine
end

