-- ==== Sys2Proof/Machine/Dispatch.lean ====
section
/-!
DEFINITION. Dispatch: one arm per row of the opcode table, each one call of that instruction's meaning.
-/

namespace Sys2Proof.Machine

def exec (i : Instr) (s : State) : Host.Outcome State Fault Refusal :=
  match i with
  | .idle => Sys2Proof.Machine.execIdle s
  | .vMagic => Sys2Proof.Machine.execVMagic s
  | .vLen => Sys2Proof.Machine.execVLen s
  | .dOe => Sys2Proof.Machine.execDOe s
  | .rLow => Sys2Proof.Machine.execRLow s
  | .rLowWait => Sys2Proof.Machine.execRLowWait s
  | .rHigh => Sys2Proof.Machine.execRHigh s
  | .rHighWait => Sys2Proof.Machine.execRHighWait s
  | .wInit => Sys2Proof.Machine.execWInit s
  | .sFetch => Sys2Proof.Machine.execSFetch s
  | .sShift => Sys2Proof.Machine.execSShift s
  | .sCheck => Sys2Proof.Machine.execSCheck s
  | .pAnchor => Sys2Proof.Machine.execPAnchor s
  | .pSample => Sys2Proof.Machine.execPSample s
  | .pFill => Sys2Proof.Machine.execPFill s
  | .pDeadline => Sys2Proof.Machine.execPDeadline s
  | .fComp => Sys2Proof.Machine.execFComp s
  | .fIdle => Sys2Proof.Machine.execFIdle s
  | .xRet => Sys2Proof.Machine.execXRet s
  | .shift8 b => Sys2Proof.Machine.execShift8 b s
  | .imageHeader length => Sys2Proof.Machine.execImageHeader length s
  | .hdrBadMagic magic length => Sys2Proof.Machine.execHdrBadMagic magic length s
  | .hdrTooLarge length => Sys2Proof.Machine.execHdrTooLarge length s
  | .pinReset => Sys2Proof.Machine.execPinReset s
  | .pinIdle => Sys2Proof.Machine.execPinIdle s
  | .pinSetup d => Sys2Proof.Machine.execPinSetup d s
  | .pinClock d => Sys2Proof.Machine.execPinClock d s
  | .pinOe => Sys2Proof.Machine.execPinOe s
  | .inInitReady v => Sys2Proof.Machine.execInInitReady v s
  | .inInitNotReady v => Sys2Proof.Machine.execInInitNotReady v s
  | .inDone v => Sys2Proof.Machine.execInDone v s
  | .inNotDone v => Sys2Proof.Machine.execInNotDone v s
  | .resOk => Sys2Proof.Machine.execResOk s
  | .resBadMagic => Sys2Proof.Machine.execResBadMagic s
  | .resImageTooLarge => Sys2Proof.Machine.execResImageTooLarge s
  | .resInitTimeout => Sys2Proof.Machine.execResInitTimeout s
  | .resMidStreamAbort => Sys2Proof.Machine.execResMidStreamAbort s
  | .resDoneTimeout => Sys2Proof.Machine.execResDoneTimeout s
  | .evOe m => Sys2Proof.Machine.execEvOe m s
  | .evOut v => Sys2Proof.Machine.execEvOut v s
  | .evIn => Sys2Proof.Machine.execEvIn s
  | .evNow => Sys2Proof.Machine.execEvNow s
  | .evWait us => Sys2Proof.Machine.execEvWait us s
  | .evRd offset count => Sys2Proof.Machine.execEvRd offset count s
  | .evRet c => Sys2Proof.Machine.execEvRet c s
  | .evLoad => Sys2Proof.Machine.execEvLoad s

end Sys2Proof.Machine
end

