-- ==== Sys2Proof/Machine/Fetch.lean ====
section
/-!
DEFINITION. What one step of the sequencer does around an operation: the host's input of the step, the operation the
PHASE register names, and how a word of the opcode table is placed where the next step takes its operation from.
-/

namespace Sys2Proof.Machine

/-- Moves the host's script past the present step. -/
def popHost (s : State) : State := { s with host := s.host.tail }

/-- Applies a state change to a next state and leaves a stop as it is. -/
def afterNext (f : State → State) : Result → Result
  | .next t => .next (f t)
  | .fault r => .fault r
  | .refused r => .refused r

/-- The operation of the present PHASE, run once (10_state R21); a PHASE that names none is stuck (30_encoding R104). -/
def runPhase (s : State) : Result :=
  match Phase.ofCode s.phase with
  | some p => afterNext popHost (exec p.instr s)
  | none => .fault (.stuckPhase s.phase)

/-- One step: block reset wins in any phase (70_reset_and_hazards R260), a LOAD outside IDLE has no step
(93_implementation_defined U1), else the operation of the present PHASE runs. DESIGN CHOICE (log 16): nothing else
happens in a step, in IDLE neither, so no other agent writes OE or OUT between loads (70_reset_and_hazards R265). -/
def stepOnce (s : State) : Result :=
  match s.host.head? with
  | some .blockReset => .next (popHost (blockReset s))
  | some .load => if busy s then .refused .overlappingLoad else runPhase s
  | _ => runPhase s

/-- The session registers as an open session has them: a register without a value gets one, so that the operation of a
phase inside a load can run (log 7). -/
def openSession (s : State) : State :=
  { s with
    len := some (s.len.getD 0#32), idx := some (s.idx.getD 0#32), sh := some (s.sh.getD Config.FILLER)
    t0 := some (s.t0.getD 0#64), result := some (s.result.getD 0#3) }

/-- Places a PHASE5 code; a number above 31 fits no PHASE register and becomes a reserved code. -/
def placePhase (w : Nat) (s : State) : State :=
  if w = 0 then { s with phase := 0x00#5, host := [] }
  else { openSession s with phase := if w < 32 then BitVec.ofNat 5 w else 0x1F#5, host := [] }

/-- Places an image header where the next step, in V_MAGIC, reads it. -/
def placeHeader (w : Nat) (s : State) : State :=
  { openSession s with
    mem := Memory.writeBytes s.mem s.imageBase (headerBytes (BitVec.ofNat 64 w))
    imageExtent := max s.imageExtent Config.HEADER_BYTES, phase := Phase.vMagic.code, host := [] }

/-- Places the byte of a SHIFT8 where the next step, in S_SHIFT, begins to send it. -/
def placeShift8 (w : Nat) (s : State) : State :=
  { openSession s with
    sh := some (byteOfWords ((littleBytes 16 w).map fun b => b.setWidth 5)), bitcnt := 0#3, half := false
    phase := Phase.sShift.code, host := [] }

/-- Places a word of the opcode table (log 7). -/
def placeWord (s : State) (nbits w : Nat) : State :=
  if nbits = 64 then placeHeader w s else if nbits = 128 then placeShift8 w s else placePhase w s

end Sys2Proof.Machine
end

