-- ==== Sys2Proof/Machine/Step.lean ====
section
/-!
DEFINITION. The step of the machine, and where an instruction's word is placed for the next step to run it.
-/

namespace Sys2Proof.Machine

/-- One step of the loader (Fetch.stepOnce). -/
def step (s : State) : Host.Outcome State Fault Refusal := stepOnce s

/-- `s` with a word of the opcode table placed so that the next step runs it (Fetch.placeWord, log 7). -/
def State.withFetchWord (s : State) (nbits w : Nat) : State := placeWord s nbits w

end Sys2Proof.Machine
end

