-- ==== Sys2Proof/Machine/Trace.lean ====
section
/-!
DEFINITION. EVT3 (30_encoding R103): a trace event as its 3-bit tag and its payload, the answered values included, and
the row of the opcode table whose primitive made it.
-/

namespace Sys2Proof.Machine

/-- The tag of an event (30_encoding R103). -/
def eventTag : Event → Code3
  | .oe _ => 0#3
  | .out _ => 1#3
  | .inp _ => 2#3
  | .now _ => 3#3
  | .wait _ => 4#3
  | .rd _ _ => 5#3
  | .ret _ => 6#3
  | .load => 7#3

/-- The payload of an event, its items in the order of 30_encoding R103; of RD the offset, the byte count and the bytes
answered. -/
def eventPayload : Event → List Nat
  | .oe m => [m.toNat]
  | .out v => [v.toNat]
  | .inp v => [v.toNat]
  | .now t => [t.toNat]
  | .wait us => [us.toNat]
  | .rd o bytes => o :: bytes.length :: bytes.map BitVec.toNat
  | .ret c => [c.toNat]
  | .load => []

/-- An item of a payload, within its width of `n` bits. -/
def payloadWord (n x : Nat) : Option (BitVec n) := if x < 2 ^ n then some (BitVec.ofNat n x) else none

/-- The event that a tag and a payload stand for; a payload that the tag does not have, or an item above its width,
stands for none. -/
def eventOfCode (tag : Code3) (payload : List Nat) : Option Event :=
  match tag.toNat, payload with
  | 0, [m] => (payloadWord 5 m).map .oe
  | 1, [v] => (payloadWord 5 v).map .out
  | 2, [v] => (payloadWord 5 v).map .inp
  | 3, [t] => (payloadWord 64 t).map .now
  | 4, [us] => (payloadWord 32 us).map .wait
  | 5, o :: n :: bytes => if bytes.length = n then (bytes.mapM (payloadWord 8)).map (.rd o) else none
  | 6, [c] => (payloadWord 3 c).map .ret
  | 7, [] => some .load
  | _, _ => none

/-- The row of an event: the primitive whose call made it, without what was answered (30_encoding R103). -/
def eventRow : Event → Instr
  | .oe m => .evOe m
  | .out v => .evOut v
  | .inp _ => .evIn
  | .now _ => .evNow
  | .wait us => .evWait us
  | .rd o bytes => .evRd o bytes.length
  | .ret c => .evRet c
  | .load => .evLoad

end Sys2Proof.Machine
end

