-- ==== Sys2Proof/Safety.lean ====
section
/-!
DEFINITION. The terms claims are stated in: the invariant of the loader (10_state R37, R41; 60_exceptions R239), what a
trace shows on the lines (43_bit_shifter R184) and the elapsed time it guarantees (40_interface_primitives R125).
-/

namespace Sys2Proof.Safety

open Machine

/-- `k` steps of the machine, stopping at the first fault or refusal. -/
def run (k : Nat) (s : State) : Result := Host.Core.run Sys2Proof.core k s

/-- PHASE holds the code of one of these phases. -/
def inPhase (s : State) (ps : List Phase) : Bool := ps.any fun p => p.code == s.phase

/-- The three shifting phases (10_state R22). -/
def shifting : List Phase := [.sShift, .pFill, .fComp]

/-- The phases between D_OE and X_RET. -/
def driving : List Phase :=
  [.rLow, .rLowWait, .rHigh, .rHighWait, .wInit, .sFetch, .sShift, .sCheck, .pAnchor, .pSample, .pFill,
   .pDeadline, .fComp, .fIdle]

/-- The phases in which PROGRAM_B has been released (10_state R41 d). -/
def released : List Phase :=
  [.rHighWait, .wInit, .sFetch, .sShift, .sCheck, .pAnchor, .pSample, .pFill, .pDeadline, .fComp, .fIdle]

/-- The session registers, as far as the coming operations read them (10_state R37, R41 a, b). -/
structure SessionInv (s : State) : Prop where
  /-- Outside the shifting phases BITCNT and HALF are 0. -/
  counters : inPhase s shifting = false → s.bitcnt = 0#3 ∧ s.half = false
  /-- Once LEN holds a value, `IDX <= LEN <= MAX_LEN`. -/
  lenBound : ∀ l, s.len = some l → l.toNat ≤ Config.MAX_LEN.toNat ∧ ∃ i, s.idx = some i ∧ i.toNat ≤ l.toNat
  /-- IDX holds 0 from LOAD until the first payload byte has been sent. -/
  idxZero : inPhase s [.vMagic, .vLen, .dOe, .rLow, .rLowWait, .rHigh, .rHighWait, .wInit] = true →
    s.idx = some 0#32
  /-- LEN is written before any operation that reads it. -/
  lenHeld : inPhase s (.dOe :: driving) = true → s.len.isSome = true
  /-- While a payload byte is being sent it is not yet counted. -/
  idxBelow : inPhase s [.sShift] = true → ∃ i l, s.idx = some i ∧ s.len = some l ∧ i.toNat < l.toNat
  /-- A byte has been counted when INIT_B is sampled after it. -/
  idxCounted : inPhase s [.sCheck] = true → ∃ i, s.idx = some i ∧ 1 ≤ i.toNat
  /-- The poll and the finish run with the whole payload sent. -/
  idxAtLen : inPhase s [.pAnchor, .pSample, .pFill, .pDeadline, .fComp, .fIdle] = true → s.idx = s.len
  /-- SH holds the byte being sent, a filler in the poll and the finish. -/
  shHeld : inPhase s [.sShift, .sCheck] = true → s.sh.isSome = true
  shFiller : inPhase s [.pFill, .pDeadline, .fComp, .fIdle] = true → s.sh = some Config.FILLER
  /-- T0 is written before P_DEADLINE reads it, and no later `Now()` answer lies below it. -/
  anchored : inPhase s [.pSample, .pFill, .pDeadline] = true →
    ∃ a l, s.t0 = some a ∧ s.lastNow = some l ∧ a.toNat ≤ l.toNat
  /-- X_RET is reached with one of the six codes in RESULT. -/
  resultHeld : inPhase s [.xRet] = true → ∃ k : Kind, s.result = some k.code

/-- The pin registers (10_state R41 c, d; 30_encoding R95; 70_reset_and_hazards R273; 60_exceptions R239).
DESIGN CHOICE, unsafe (log 16): `oeWord` and `outWord` hold in IDLE too because in this model nothing but the loader
writes OE or OUT between loads, where R265 says nothing of who may. -/
structure PinInv (s : State) : Prop where
  /-- OE is its reset value, with OUT still at its own, or the one word the loader writes. -/
  oeWord : (s.oe = 0x00#5 ∧ s.out = 0x00#5) ∨ s.oe = Config.OE_MASK
  oeDriving : inPhase s driving = true → s.oe = Config.OE_MASK
  outWord : s.out ∈ outWords
  lowPulse : inPhase s [.rLowWait, .rHigh] = true → s.out = pinResetWord
  idleLevel : inPhase s [.rHighWait, .wInit] = true → s.out = pinIdleWord
  programHigh : inPhase s released = true → lineHigh Config.PROGRAM_B_BIT s.out = true
  /-- Between the two writes of a bit, DIN is set and CCLK is low. -/
  dinSet : inPhase s shifting = true → s.half = true →
    ∃ b, s.sh = some b ∧ s.out = pinSetupWord (dataBit b s.bitcnt)
  /-- After a payload byte the lines hold its last clock word. -/
  afterByte : inPhase s [.sCheck] = true → ∃ b, s.sh = some b ∧ s.out = pinClockWord (b.getLsbD 0)
  afterFiller : inPhase s [.pDeadline, .fIdle] = true → s.out = pinClockWord true
  /-- What the lines are left at on return after the reset pulse, by result. -/
  atReturn : inPhase s [.xRet] = true → ∀ k : Kind, s.result = some k.code →
    (k = .ok → s.oe = Config.OE_MASK ∧ s.out = pinIdleWord) ∧
    (k = .initTimeout → s.oe = Config.OE_MASK ∧ s.out = pinIdleWord) ∧
    (k = .midStreamAbort → s.oe = Config.OE_MASK ∧ ∃ b, s.sh = some b ∧ s.out = pinClockWord (b.getLsbD 0)) ∧
    (k = .doneTimeout → s.oe = Config.OE_MASK ∧ s.out = pinClockWord true)

/-- The invariant of every state reachable from reset (10_state R41). -/
structure Inv (s : State) : Prop where
  legalPhase : (Phase.ofCode s.phase).isSome = true
  memory : Memory.wf s.mem = true
  session : SessionInv s
  pins : PinInv s

/-- The words a trace writes to OUT, in order. -/
def outsOf (trace : List Event) : List PinWord :=
  trace.filterMap fun e => match e with | .out v => some v | _ => none

/-- Whether an event moves or samples anything outside the image: every event but RD, RET and LOAD
(41_load_and_validator R144). -/
def hardwareEvent : Event → Bool
  | .oe _ | .out _ | .inp _ | .now _ | .wait _ => true
  | .rd _ _ | .ret _ | .load => false

/-- DIN at the rising edges of CCLK that a sequence of OUT words makes after the word `prev` (43_bit_shifter R184). -/
def risingEdges (prev : PinWord) : List PinWord → List Bool
  | [] => []
  | w :: ws =>
    (if lineHigh Config.CCLK_BIT prev = false ∧ lineHigh Config.CCLK_BIT w = true then [lineHigh Config.DIN_BIT w]
      else []) ++ risingEdges w ws

/-- The bits of a byte, most significant first (20_memory R68). -/
def bitsMsbFirst (b : Byte) : List Bool :=
  [b.getLsbD 7, b.getLsbD 6, b.getLsbD 5, b.getLsbD 4, b.getLsbD 3, b.getLsbD 2, b.getLsbD 1, b.getLsbD 0]

/-- The OUT events of SHIFT8 (43_bit_shifter R184). -/
def shift8Events (b : Byte) : List Event := (shift8Words b).map .out

/-- The events of `n` payload bytes whose INIT_B samples answer `vs`, from byte `i` on (43_bit_shifter R188): for each
byte a read, sixteen writes and a sample. -/
def payloadEvents (s : State) : Nat → List PinWord → List Event
  | _, [] => []
  | i, v :: vs =>
    .rd (Config.HEADER_BYTES + i) (imageBytes s (Config.HEADER_BYTES + i) 1)
      :: shift8Events ((imageBytes s (Config.HEADER_BYTES + i) 1).headD 0#8)
      ++ .inp v :: payloadEvents s (i + 1) vs

/-- The events of poll iterations that find DONE low, with the samples `vs` and the counts `ts`
(44_completion_poll R209). -/
def pollEvents : List PinWord → List Millis → List Event
  | v :: vs, t :: ts => .inp v :: shift8Events Config.FILLER ++ .now t :: pollEvents vs ts
  | _, _ => []

/-- Microseconds that have passed at least, by the lower bound of every `Wait` (40_interface_primitives R125). -/
def minElapsedUs : List Event → Nat
  | [] => 0
  | .wait n :: es => n.toNat + minElapsedUs es
  | _ :: es => minElapsedUs es

end Sys2Proof.Safety
end

