-- ==== Sys2Proof/Certificates/Slice0/Obligations.lean ====
section
/-!
DEFINITION. The statements for the provers. Each docstring names the rules of spec/ it formalises; a clause that rests
on a choice of the model names the log entry. Codes, words and constants are written out as numbers, from the spec.
-/

open Sys2Proof Sys2Proof.Machine Sys2Proof.Safety

/-! ## Encodings -/

/-- Words written out from the tables of 30_encoding (R93, R95 to R99, R102, R103) decode to their rows. -/
def Obligations.WrittenWordsDecode : Prop :=
  decode (.phase5 0b00000#5) = .ok .idle ∧ decode (.phase5 0b01000#5) = .ok .wInit ∧
  decode (.phase5 0b01010#5) = .ok .sShift ∧ decode (.phase5 0b10010#5) = .ok .xRet ∧
  decode (.hdr64 0x5341523100220000#64) = .ok (.imageHeader 0x220000#32) ∧
  decode (.hdr64 0x5341523100220001#64) = .ok (.hdrTooLarge 0x220001#32) ∧
  decode (.hdr64 0x3152415300000002#64) = .ok (.hdrBadMagic 0x31524153#32 2#32) ∧
  decode (.outLevel 0b10000#5) = .ok .pinIdle ∧ decode (.outBit 0b10000#5) = .ok (.pinSetup false) ∧
  decode (.outBit 0b10011#5) = .ok (.pinClock true) ∧ decode (.oe 0b10011#5) = .ok .pinOe ∧
  decode (.inInit 0b11011#5) = .ok (.inInitReady 0b11011#5) ∧
  decode (.inDone 0b11011#5) = .ok (.inNotDone 0b11011#5) ∧
  decode (.res3 0b100#3) = .ok .resMidStreamAbort ∧ decode (.evt3 0b100#3 [5000]) = .ok (.evWait 5000#32) ∧
  decode (.outWords [0x12#5, 0x13#5, 0x10#5, 0x11#5, 0x12#5, 0x13#5, 0x12#5, 0x13#5,
    0x10#5, 0x11#5, 0x10#5, 0x11#5, 0x10#5, 0x11#5, 0x10#5, 0x11#5]) = .ok (.shift8 0b10110000#8)

/-- The nineteen phase codes of R99, in order, and nothing at 0x13 to 0x1F (R104). -/
def Obligations.PhaseCodesAreTheTable : Prop :=
  ∀ w : PhaseCode,
    (decode (.phase5 w)).toOption =
      [Instr.idle, .vMagic, .vLen, .dOe, .rLow, .rLowWait, .rHigh, .rHighWait, .wInit, .sFetch, .sShift, .sCheck,
        .pAnchor, .pSample, .pFill, .pDeadline, .fComp, .fIdle, .xRet][w.toNat]?

/-- Decoding what a well-formed instruction is encoded as gives it back, whatever its operands. -/
def Obligations.DecodeOfEncodeIsTheInstruction : Prop :=
  ∀ i : Instr, i.wellFormed = true → decode (encode i) = .ok i

/-- No two words of one place stand for one instruction: a word that decodes is the encoding of what it decodes to, and
that is a well-formed instruction. -/
def Obligations.DecodingLosesNoBit : Prop :=
  ∀ (c : Code) (i : Instr), decode c = .ok i → encode i = c ∧ i.wellFormed = true

/-- R104: PHASE codes 0x13 to 0x1F, OUT words outside R95, OE words other than 0x13 and result codes 6 and 7 are no
instructions. -/
def Obligations.ReservedWordsDecodeToNothing : Prop :=
  (∀ w : PhaseCode, 0x13 ≤ w.toNat → decode (.phase5 w) = .error (.phaseReserved w)) ∧
  (∀ w : PinWord, w ∉ [0x00#5, 0x10#5, 0x11#5, 0x12#5, 0x13#5] →
    decode (.outLevel w) = .error (.outWordNeverWritten w) ∧ decode (.outBit w) = .error (.outWordNeverWritten w)) ∧
  (∀ w : PinWord, w ≠ 0x13#5 → decode (.oe w) = .error (.oeWordNeverWritten w)) ∧
  (∀ c : Code3, 6 ≤ c.toNat → decode (.res3 c) = .error (.resultReserved c))

/-- R91, R92, R7, R67: BE32 puts the byte at the lowest offset first, and the header's fields are its two halves, bytes
0 to 3 and 4 to 7. -/
def Obligations.HeaderFieldsAreBigEndian : Prop :=
  (∀ b0 b1 b2 b3 : Byte, (be32 b0 b1 b2 b3).toNat =
    b0.toNat * 2 ^ 24 + b1.toNat * 2 ^ 16 + b2.toNat * 2 ^ 8 + b3.toNat) ∧
  (∀ b0 b1 b2 b3 b4 b5 b6 b7 : Byte,
    headerMagic (b0 ++ b1 ++ b2 ++ b3 ++ b4 ++ b5 ++ b6 ++ b7) = be32 b0 b1 b2 b3 ∧
    headerLength (b0 ++ b1 ++ b2 ++ b3 ++ b4 ++ b5 ++ b6 ++ b7) = be32 b4 b5 b6 b7)

/-- R93: when a header is valid, as a comparison of its fields and as match and mask with a range; every other header
selects a failure, BadMagic where the magic is wrong. -/
def Obligations.HeaderIsValidExactlyWhen : Prop :=
  ∀ h : BitVec 64,
    ((∃ l, decode (.hdr64 h) = .ok (.imageHeader l)) ↔
      headerMagic h = 0x53415231#32 ∧ (headerLength h).toNat ≤ 0x220000) ∧
    (headerMagic h = 0x53415231#32 ↔ h &&& 0xFFFFFFFF00000000#64 = 0x5341523100000000#64) ∧
    (headerMagic h ≠ 0x53415231#32 → decode (.hdr64 h) = .ok (.hdrBadMagic (headerMagic h) (headerLength h))) ∧
    (headerMagic h = 0x53415231#32 → 0x220000 < (headerLength h).toNat →
      decode (.hdr64 h) = .ok (.hdrTooLarge (headerLength h)))

/-- R98, R184, R68: a byte becomes sixteen words, each bit set with CCLK low and then clocked, most significant first;
whatever word stood before, the target sees exactly eight rising edges, with the byte's bits on DIN. -/
def Obligations.BytesAreSentMostSignificantBitFirst : Prop :=
  ∀ (b : Byte) (prev : PinWord),
    shift8Words b = (bitsMsbFirst b).flatMap
      (fun d => [0x10#5 ||| (if d then 0x02#5 else 0x00#5), 0x10#5 ||| (if d then 0x02#5 else 0x00#5) ||| 0x01#5]) ∧
    risingEdges prev (shift8Words b) = bitsMsbFirst b

/-- R103: an event's tag and payload, the answered values included; a tag and payload stand for exactly the event they
are the code of; and an event row that goes on makes one event, of its own row and tag (rows by themselves: log 10). -/
def Obligations.TraceEventsCarryTagAndPayload : Prop :=
  (∀ (p : PinWord) (t : Millis) (us : Word32) (o : Nat) (bs : List Byte) (c : Code3),
    let code := fun e : Event => (eventTag e, eventPayload e)
    code (.oe p) = (0#3, [p.toNat]) ∧ code (.out p) = (1#3, [p.toNat]) ∧ code (.inp p) = (2#3, [p.toNat]) ∧
    code (.now t) = (3#3, [t.toNat]) ∧ code (.wait us) = (4#3, [us.toNat]) ∧
    code (.rd o bs) = (5#3, [o, bs.length] ++ bs.map fun b => b.toNat) ∧ code (.ret c) = (6#3, [c.toNat]) ∧
    code .load = (7#3, [])) ∧
  (∀ (e : Event) (tag : Code3) (payload : List Nat),
    eventOfCode tag payload = some e ↔ eventTag e = tag ∧ eventPayload e = payload) ∧
  (∀ (e0 : Event) (s t : State), exec (eventRow e0) s = .next t →
    ∃ e, t.trace = s.trace ++ [e] ∧ eventRow e = eventRow e0 ∧ ∃ ops, encode (eventRow e0) = .evt3 (eventTag e) ops)

/-! ## Reset and the step -/

/-- R35, R260: what block reset leaves; a session register holds no value. -/
def Obligations.ResetLeaves : Prop :=
  State.reset.phase = 0x00#5 ∧ State.reset.bitcnt = 0#3 ∧ State.reset.half = false ∧
  State.reset.oe = 0x00#5 ∧ State.reset.out = 0x00#5 ∧ State.reset.len = none ∧ State.reset.idx = none ∧
  State.reset.sh = none ∧ State.reset.t0 = none ∧ State.reset.result = none

/-- R260: block reset may occur in any phase; the loader is as after reset, and the trace simply stops, with no RET.
(That it comes as an entry of the host script is the model's, log 5.) -/
def Obligations.BlockResetAtAnyTime : Prop :=
  ∀ (s : State) (rest : List HostInput), s.host = .blockReset :: rest →
    step s = .next
      { s with
        host := rest, phase := 0x00#5, bitcnt := 0#3, half := false, oe := 0x00#5, out := 0x00#5
        len := none, idx := none, sh := none, t0 := none, result := none, lastNow := none }

/-- R21: with no block reset, and LOAD only in IDLE, a step performs the operation of the present PHASE exactly once; the
host script moves on by one entry, and a stop is the operation's own. -/
def Obligations.StepRunsTheDecodedOperation : Prop :=
  ∀ (s : State) (i : Instr), decode (.phase5 s.phase) = .ok i →
    s.host.head? ≠ some .blockReset → (s.host.head? = some .load → s.phase = 0x00#5) →
    (∀ t, exec i s = .next t → step s = .next { t with host := t.host.tail }) ∧
    (∀ r, exec i s = .fault r → step s = .fault r) ∧
    (∀ r, exec i s = .refused r → step s = .refused r)

/-- R140 ("An overlapping LOAD has no step", 93 U1) and R104: a LOAD in a phase other than IDLE has no step, and a PHASE
that names no operation is stuck. -/
def Obligations.StepsThatDoNotExist : Prop :=
  (∀ (s : State) (rest : List HostInput), s.host = .load :: rest → s.phase ≠ 0x00#5 →
    step s = .refused .overlappingLoad) ∧
  (∀ s : State, 0x13 ≤ s.phase.toNat → s.host.head? ≠ some .blockReset → s.host.head? ≠ some .load →
    step s = .fault (.stuckPhase s.phase))

/-! ## LOAD and the validator -/

/-- R140, R36: LOAD in IDLE begins a session and touches neither OE nor OUT; without LOAD the loader stays in IDLE, which
is a step that changes nothing, where R101 says "no step": the model's choice, as the host's script is (log 5). The LOAD
event by itself (EV_LOAD) does the same as LOAD, and has no step while a load is in progress. -/
def Obligations.LoadBeginsASession : Prop :=
  ∀ s : State,
    let begun : State :=
      { s with
        idx := some 0#32, bitcnt := 0#3, half := false, len := none, sh := none, t0 := none, result := none
        lastNow := none, phase := 0x01#5, trace := s.trace ++ [.load] }
    (s.host.head? = some .load → exec .idle s = .next begun) ∧
    (s.host.head? ≠ some .load → exec .idle s = .next s) ∧
    (s.phase = 0x00#5 → exec .evLoad s = .next begun) ∧
    (s.phase ≠ 0x00#5 → exec .evLoad s = .refused .overlappingLoad)

/-- R142: V_MAGIC reads offsets 0 to 3 and compares all 32 bits; a wrong magic raises BadMagic. The header is readable
(R64). -/
def Obligations.VMagicComparesTheMagic : Prop :=
  ∀ s : State, 8 ≤ s.imageExtent →
    let b := fun k => Memory.read s.mem (s.imageBase + k)
    let r : State := { s with trace := s.trace ++ [.rd 0 [b 0, b 1, b 2, b 3]] }
    (be32 (b 0) (b 1) (b 2) (b 3) = 0x53415231#32 → exec .vMagic s = .next { r with phase := 0x02#5 }) ∧
    (be32 (b 0) (b 1) (b 2) (b 3) ≠ 0x53415231#32 →
      exec .vMagic s = .next { r with result := some 1#3, phase := 0x12#5 })

/-- R143: V_LEN reads offsets 4 to 7, latches a length up to 0x220000 in LEN, and raises ImageTooLarge above it. -/
def Obligations.VLenBoundsTheLength : Prop :=
  ∀ s : State, 8 ≤ s.imageExtent →
    let b := fun k => Memory.read s.mem (s.imageBase + k)
    let l := be32 (b 4) (b 5) (b 6) (b 7)
    let r : State := { s with trace := s.trace ++ [.rd 4 [b 4, b 5, b 6, b 7]] }
    (l.toNat ≤ 0x220000 → exec .vLen s = .next { r with len := some l, phase := 0x03#5 }) ∧
    (0x220000 < l.toNat → exec .vLen s = .next { r with result := some 2#3, phase := 0x12#5 })

/-- R91 to R93, R142, R143: what the validator does with a header, given as the operand, from V_MAGIC and from V_LEN; a
phase that reads no header is left alone (log 9). -/
def Obligations.HeaderRowsAreTheValidator : Prop :=
  ∀ (s : State) (m l : Word32),
    let rd0 : Word32 → Event := fun m => .rd 0 [m.extractLsb' 24 8, m.extractLsb' 16 8, m.extractLsb' 8 8, m.extractLsb' 0 8]
    let rd4 : Event := .rd 4 [l.extractLsb' 24 8, l.extractLsb' 16 8, l.extractLsb' 8 8, l.extractLsb' 0 8]
    (l.toNat ≤ 0x220000 →
      (s.phase = 0x01#5 → exec (.imageHeader l) s = .next
        { s with len := some l, phase := 0x03#5, trace := s.trace ++ [rd0 0x53415231#32, rd4] }) ∧
      (s.phase = 0x02#5 → exec (.imageHeader l) s = .next
        { s with len := some l, phase := 0x03#5, trace := s.trace ++ [rd4] }) ∧
      (s.phase ≠ 0x01#5 → s.phase ≠ 0x02#5 → exec (.imageHeader l) s = .next s)) ∧
    (m ≠ 0x53415231#32 →
      (s.phase = 0x01#5 → exec (.hdrBadMagic m l) s = .next
        { s with result := some 1#3, phase := 0x12#5, trace := s.trace ++ [rd0 m] }) ∧
      (s.phase = 0x02#5 → exec (.hdrBadMagic m l) s = .next
        (if l.toNat ≤ 0x220000 then { s with len := some l, phase := 0x03#5, trace := s.trace ++ [rd4] }
          else { s with result := some 2#3, phase := 0x12#5, trace := s.trace ++ [rd4] })) ∧
      (s.phase ≠ 0x01#5 → s.phase ≠ 0x02#5 → exec (.hdrBadMagic m l) s = .next s)) ∧
    (0x220000 < l.toNat →
      (s.phase = 0x01#5 → exec (.hdrTooLarge l) s = .next
        { s with result := some 2#3, phase := 0x12#5, trace := s.trace ++ [rd0 0x53415231#32, rd4] }) ∧
      (s.phase = 0x02#5 → exec (.hdrTooLarge l) s = .next
        { s with result := some 2#3, phase := 0x12#5, trace := s.trace ++ [rd4] }) ∧
      (s.phase ≠ 0x01#5 → s.phase ≠ 0x02#5 → exec (.hdrTooLarge l) s = .next s))

/-- A header in the image does, in the two steps from V_MAGIC, what the row it decodes to does in one: the operand form
and the memory form of the validator agree. -/
def Obligations.TwoValidatorStepsAreTheHeaderRow : Prop :=
  ∀ (s : State) (h : BitVec 64) (i : Instr), s.phase = 0x01#5 → s.host = [] → 8 ≤ s.imageExtent →
    imageBytes s 0 8 = headerBytes h → decode (.hdr64 h) = .ok i →
    (headerMagic h = 0x53415231#32 → run 2 s = exec i s) ∧ (headerMagic h ≠ 0x53415231#32 → run 1 s = exec i s)

/-- R64, 93 U2: a read beyond the readable extent has no step, whichever operation makes it. -/
def Obligations.ReadsBeyondTheExtentAreRefused : Prop :=
  ∀ s : State,
    (s.imageExtent < 8 → exec .vMagic s = .refused (.imageBeyondExtent 0) ∧
      exec .vLen s = .refused (.imageBeyondExtent 4)) ∧
    (∀ i l : Word32, s.idx = some i → s.len = some l → i ≠ l → s.imageExtent < 8 + i.toNat + 1 →
      exec .sFetch s = .refused (.imageBeyondExtent (8 + i.toNat))) ∧
    (∀ o n : Nat, s.imageExtent < o + n → exec (.evRd o n) s = .refused (.imageBeyondExtent o))

/-- R144, R231, R270: a load of an image with a wrong magic is LOAD, one read and RET 1; no register but RESULT and the
session's own start is written, and OE and OUT are what they were. -/
def Obligations.BadMagicLoadTouchesNoPin : Prop :=
  ∀ s : State, s.phase = 0x00#5 → s.host = [.load] → 8 ≤ s.imageExtent →
    be32OfBytes (imageBytes s 0 4) ≠ 0x53415231#32 →
    run 3 s = .next
      { s with
        host := [], phase := 0x00#5, bitcnt := 0#3, half := false, idx := some 0#32, len := none, sh := none
        t0 := none, lastNow := none, result := some 1#3
        trace := s.trace ++ [.load, .rd 0 (imageBytes s 0 4), .ret 1#3] }

/-- R144, R232, R238, R270: with the right magic and a length above the bound, the load is LOAD, two reads and RET 2, and
OE and OUT are what they were. -/
def Obligations.TooLargeLoadTouchesNoPin : Prop :=
  ∀ s : State, s.phase = 0x00#5 → s.host = [.load] → 8 ≤ s.imageExtent →
    be32OfBytes (imageBytes s 0 4) = 0x53415231#32 → 0x220000 < (be32OfBytes (imageBytes s 4 4)).toNat →
    run 4 s = .next
      { s with
        host := [], phase := 0x00#5, bitcnt := 0#3, half := false, idx := some 0#32, len := none, sh := none
        t0 := none, lastNow := none, result := some 2#3
        trace := s.trace ++ [.load, .rd 0 (imageBytes s 0 4), .rd 4 (imageBytes s 4 4), .ret 2#3] }

/-- R36: nothing a previous load left in the session registers or counters is read by the next: two states that differ
only there become the same state at LOAD. -/
def Obligations.LoadForgetsTheLastSession : Prop :=
  ∀ (s : State) (rest : List HostInput) (len idx : Option Word32) (sh : Option Byte) (t0 last : Option Millis)
    (result : Option Code3) (k : BitVec 3) (half : Bool), s.phase = 0x00#5 → s.host = .load :: rest →
    (∃ t, step s = .next t ∧ t.phase = 0x01#5 ∧
      step { s with
        len := len, idx := idx, sh := sh, t0 := t0, lastNow := last, result := result, bitcnt := k
        half := half } = .next t)

/-! ## The reset sequencer -/

/-- R161, R96, R120: D_OE enables exactly CCLK, DIN and PROGRAM_B and leaves OUT alone; PIN_OE and the event `Oe(0x13)`
write the same word and leave PHASE alone (log 10). -/
def Obligations.OutputsAreEnabled : Prop :=
  ∀ s : State,
    exec .dOe s = .next { s with oe := 0x13#5, phase := 0x04#5, trace := s.trace ++ [.oe 0x13#5] } ∧
    exec .pinOe s = .next { s with oe := 0x13#5, trace := s.trace ++ [.oe 0x13#5] } ∧
    exec (.evOe 0x13#5) s = .next { s with oe := 0x13#5, trace := s.trace ++ [.oe 0x13#5] }

/-- R162, R164: R_LOW writes 0x00 to OUT and R_HIGH 0x10. -/
def Obligations.ResetPulseWords : Prop :=
  ∀ s : State,
    exec .rLow s = .next { s with out := 0x00#5, phase := 0x05#5, trace := s.trace ++ [.out 0x00#5] } ∧
    exec .rHigh s = .next { s with out := 0x10#5, phase := 0x07#5, trace := s.trace ++ [.out 0x10#5] }

/-- R163, R165, R125: the two waits change no line and no state of the loader but PHASE; `Wait` by itself changes
nothing. -/
def Obligations.WaitsChangeNothing : Prop :=
  ∀ s : State,
    exec .rLowWait s = .next { s with phase := 0x06#5, trace := s.trace ++ [.wait 1#32] } ∧
    exec .rHighWait s = .next { s with phase := 0x08#5, trace := s.trace ++ [.wait 5000#32] } ∧
    ∀ n : Word32, exec (.evWait n) s = .next { s with trace := s.trace ++ [.wait n] }

/-- R166, R185: W_INIT and S_CHECK take one sample, whose bit 3 alone decides; a failure writes no register but RESULT
and PHASE. -/
def Obligations.InitChecksDecideOnOneSample : Prop :=
  ∀ (s : State) (v : PinWord) (vs : List PinWord), s.ins = v :: vs →
    let r : State := { s with ins := vs, trace := s.trace ++ [.inp v] }
    (v.getLsbD 3 = true →
      exec .wInit s = .next { r with phase := 0x09#5 } ∧ exec .sCheck s = .next { r with phase := 0x09#5 }) ∧
    (v.getLsbD 3 = false →
      exec .wInit s = .next { r with result := some 3#3, phase := 0x12#5 } ∧
      exec .sCheck s = .next { r with result := some 4#3, phase := 0x12#5 })

/-- R167, R271, R272: from D_OE, six steps make exactly the six events of the reset pulse, and a sample with bit 3 at 0
returns InitTimeout with the lines idle. The waits before the sample add up to 5001 microseconds, the bound R281 derives,
as the model adds up lower bounds (DEDUCED, log 14). -/
def Obligations.ResetSequenceIsSixEvents : Prop :=
  ∀ (s : State) (v : PinWord) (vs : List PinWord), s.phase = 0x03#5 → s.host = [] → s.ins = v :: vs →
    let pulse : List Event := [.oe 0x13#5, .out 0x00#5, .wait 1#32, .out 0x10#5, .wait 5000#32, .inp v]
    minElapsedUs (pulse.take 5) = 5001 ∧
    (v.getLsbD 3 = true → run 6 s = .next
      { s with oe := 0x13#5, out := 0x10#5, ins := vs, phase := 0x09#5, trace := s.trace ++ pulse }) ∧
    (v.getLsbD 3 = false → run 7 s = .next
      { s with
        oe := 0x13#5, out := 0x10#5, ins := vs, result := some 3#3, phase := 0x00#5
        trace := s.trace ++ pulse ++ [.ret 3#3] })

/-! ## The shifter -/

/-- R181: S_FETCH goes to the poll when all payload bytes are sent, with no event; else it reads payload byte IDX,
which is readable (R64), into SH. -/
def Obligations.SFetchReadsTheNextByte : Prop :=
  ∀ (s : State) (i l : Word32), s.idx = some i → s.len = some l →
    (i = l → exec .sFetch s = .next { s with phase := 0x0C#5 }) ∧
    (i ≠ l → 8 + i.toNat + 1 ≤ s.imageExtent →
      let b := Memory.read s.mem (s.imageBase + (8 + i.toNat))
      exec .sFetch s = .next
        { s with sh := some b, phase := 0x0A#5, trace := s.trace ++ [.rd (8 + i.toNat) [b]] })

/-- R183, R182, R203, R205: the shifting step in its three phases. With HALF at 0 the data bit is written with CCLK low;
with HALF at 1 CCLK is raised over the same DIN, and the eighth bit ends the byte, which is counted in S_SHIFT only. -/
def Obligations.ShiftingStep : Prop :=
  ∀ (s : State) (b : Byte), s.sh = some b →
    let d : Bool := b.getLsbD (7 - s.bitcnt.toNat)
    let setup : PinWord := 0x10#5 ||| (if d then 0x02#5 else 0x00#5)
    let clock : PinWord := 0x10#5 ||| (if d then 0x02#5 else 0x00#5) ||| 0x01#5
    let low : State := { s with half := true, out := setup, trace := s.trace ++ [.out setup] }
    let high : State := { s with half := false, out := clock, trace := s.trace ++ [.out clock] }
    (s.half = false →
      exec .sShift s = .next low ∧ exec .pFill s = .next low ∧ exec .fComp s = .next low) ∧
    (s.half = true → s.bitcnt.toNat < 7 →
      exec .sShift s = .next { high with bitcnt := s.bitcnt + 1#3 } ∧
      exec .pFill s = .next { high with bitcnt := s.bitcnt + 1#3 } ∧
      exec .fComp s = .next { high with bitcnt := s.bitcnt + 1#3 }) ∧
    (s.half = true → s.bitcnt = 7#3 →
      (∀ i, s.idx = some i →
        exec .sShift s = .next { high with bitcnt := 0#3, idx := some (i + 1#32), phase := 0x0B#5 }) ∧
      exec .pFill s = .next { high with bitcnt := 0#3, phase := 0x0F#5 } ∧
      exec .fComp s = .next { high with bitcnt := 0#3, phase := 0x11#5 })

/-- R184: SHIFT8(b) emits the sixteen words of `b`, leaves the counters at 0 and the last clock word on the lines, and
ends as the shifting phase it is run in ends a byte. In a phase that does not shift, PHASE and IDX stay, and SH is set to
`b` in every phase (log 8). -/
def Obligations.Shift8EmitsAByte : Prop :=
  ∀ (s : State) (b : Byte),
    let r : State :=
      { s with
        sh := some b, bitcnt := 0#3, half := false, out := if b.getLsbD 0 then 0x13#5 else 0x11#5
        trace := s.trace ++ shift8Events b }
    (∀ i, s.phase = 0x0A#5 → s.idx = some i →
      exec (.shift8 b) s = .next { r with idx := some (i + 1#32), phase := 0x0B#5 }) ∧
    (s.phase = 0x0E#5 → exec (.shift8 b) s = .next { r with phase := 0x0F#5 }) ∧
    (s.phase = 0x10#5 → exec (.shift8 b) s = .next { r with phase := 0x11#5 }) ∧
    (s.phase ∉ [0x0A#5, 0x0E#5, 0x10#5] → exec (.shift8 b) s = .next r)

/-- R184, R106: in each shifting phase, sixteen steps from the start of a byte are SHIFT8 of the byte in SH. -/
def Obligations.SixteenStepsAreShift8 : Prop :=
  ∀ (s : State) (b : Byte), s.phase ∈ [0x0A#5, 0x0E#5, 0x10#5] → s.host = [] → s.sh = some b →
    s.bitcnt = 0#3 → s.half = false → s.idx.isSome = true → run 16 s = exec (.shift8 b) s

/-- R188, R180: while INIT_B reads ready after every byte, eighteen steps a byte send the payload in order: for each
byte one read, sixteen writes and one sample, and IDX counts it. -/
def Obligations.PayloadIsSentInOrder : Prop :=
  ∀ (s : State) (vs rest : List PinWord) (i l : Word32), s.phase = 0x09#5 → s.host = [] →
    s.bitcnt = 0#3 → s.half = false → s.idx = some i → s.len = some l → s.ins = vs ++ rest →
    (∀ v ∈ vs, v.getLsbD 3 = true) → i.toNat + vs.length ≤ l.toNat → 8 + l.toNat ≤ s.imageExtent →
    ∃ t, run (18 * vs.length) s = .next t ∧ t.phase = 0x09#5 ∧ t.idx = some (BitVec.ofNat 32 (i.toNat + vs.length)) ∧
      t.len = s.len ∧ t.ins = rest ∧ t.mem = s.mem ∧ t.oe = s.oe ∧ t.bitcnt = 0#3 ∧ t.half = false ∧
      t.trace = s.trace ++ payloadEvents s i.toNat vs

/-- R185, R234, R236: when INIT_B reads ready after each of the first bytes and 0 after the next, exactly that many
bytes were sent, the result is MidStreamAbort, and the lines keep the last clock word. -/
def Obligations.AbortAfterExactlyKBytes : Prop :=
  ∀ (s : State) (vs rest : List PinWord) (v : PinWord) (i l : Word32), s.phase = 0x09#5 → s.host = [] →
    s.bitcnt = 0#3 → s.half = false → s.idx = some i → s.len = some l → s.ins = vs ++ v :: rest →
    (∀ w ∈ vs, w.getLsbD 3 = true) → v.getLsbD 3 = false → i.toNat + vs.length + 1 ≤ l.toNat →
    8 + l.toNat ≤ s.imageExtent →
    ∃ t, run (18 * (vs.length + 1) + 1) s = .next t ∧ t.phase = 0x00#5 ∧ t.result = some 4#3 ∧
      t.idx = some (BitVec.ofNat 32 (i.toNat + vs.length + 1)) ∧ t.oe = s.oe ∧
      (t.out = 0x11#5 ∨ t.out = 0x13#5) ∧
      t.trace = s.trace ++ payloadEvents s i.toNat (vs ++ [v]) ++ [.ret 4#3]

/-! ## The poll and the finish -/

/-- R201: P_ANCHOR writes T0 with the count answered, which is the next one placed, where one is. -/
def Obligations.PAnchorSetsT0 : Prop :=
  ∀ s : State, nowInContract s = true →
    exec .pAnchor s = .next
      { s with
        t0 := some (nowAnswer s), phase := 0x0D#5, nows := s.nows.tail, lastNow := some (nowAnswer s)
        nowDraws := if s.nows.isEmpty then s.nowDraws + 1 else s.nowDraws
        trace := s.trace ++ [.now (nowAnswer s)] } ∧
    ∀ (t : Millis) (ts : List Millis), s.nows = t :: ts → nowAnswer s = t

/-- R202: P_SAMPLE puts the filler into SH and chooses on bit 2 of one sample. -/
def Obligations.PSampleChoosesOnDone : Prop :=
  ∀ (s : State) (v : PinWord) (vs : List PinWord), s.ins = v :: vs →
    exec .pSample s = .next
      { s with
        ins := vs, sh := some 0xFF#8, phase := if v.getLsbD 2 then 0x10#5 else 0x0E#5
        trace := s.trace ++ [.inp v] }

/-- R204: P_DEADLINE fails when the count answered is at least T0 + 100, on mathematical integers; a failure writes no
register but RESULT and PHASE. -/
def Obligations.PDeadlineComparesWithT0 : Prop :=
  ∀ (s : State) (a : Millis), s.t0 = some a → nowInContract s = true →
    let r : State :=
      { s with
        nows := s.nows.tail, lastNow := some (nowAnswer s)
        nowDraws := if s.nows.isEmpty then s.nowDraws + 1 else s.nowDraws
        trace := s.trace ++ [.now (nowAnswer s)] }
    ((nowAnswer s).toNat - a.toNat ≥ (100 : Int) →
      exec .pDeadline s = .next { r with result := some 5#3, phase := 0x12#5 }) ∧
    ((nowAnswer s).toNat - a.toNat < (100 : Int) → exec .pDeadline s = .next { r with phase := 0x0D#5 })

/-- R124, 93 U4: the count answered by `Now()` is the next one placed, one below an earlier one of the load is refused by
every operation that asks for it, and an answer that is not placed is never below an earlier one. -/
def Obligations.NowIsMonotonic : Prop :=
  ∀ s : State,
    (∀ (t l : Millis) (ts : List Millis), s.nows = t :: ts → s.lastNow = some l → t.toNat < l.toNat →
      exec .evNow s = .refused (.timeWentBackwards t) ∧ exec .pAnchor s = .refused (.timeWentBackwards t) ∧
      (s.t0.isSome = true → exec .pDeadline s = .refused (.timeWentBackwards t))) ∧
    (∀ (t : Millis) (ts : List Millis), s.nows = t :: ts → (∀ l, s.lastNow = some l → l.toNat ≤ t.toNat) →
      exec .evNow s = .next { s with nows := ts, lastNow := some t, trace := s.trace ++ [.now t] }) ∧
    (s.nows = [] → ∃ t : Millis, (∀ l, s.lastNow = some l → l.toNat ≤ t.toNat) ∧
      exec .evNow s = .next
        { s with nowDraws := s.nowDraws + 1, lastNow := some t, trace := s.trace ++ [.now t] })

/-- R122: `In()` answers the next word placed, else a free value; it changes no state of the loader. -/
def Obligations.InOnlySamples : Prop :=
  ∀ s : State,
    (∀ (v : PinWord) (vs : List PinWord), s.ins = v :: vs →
      exec .evIn s = .next { s with ins := vs, trace := s.trace ++ [.inp v] }) ∧
    (s.ins = [] → exec .evIn s = .next
      { s with inDraws := s.inDraws + 1, trace := s.trace ++ [.inp (Config.freeIn s.inDraws)] })

/-- R122, R166, R185, R202: where no answer is placed, the sampling operations decide on the free value as they do on any
other. -/
def Obligations.FreeSamplesDecideAlike : Prop :=
  ∀ s : State, s.ins = [] →
    let v := Config.freeIn s.inDraws
    let r : State := { s with inDraws := s.inDraws + 1, trace := s.trace ++ [.inp v] }
    exec .wInit s = .next (if v.getLsbD 3 then { r with phase := 0x09#5 }
      else { r with result := some 3#3, phase := 0x12#5 }) ∧
    exec .sCheck s = .next (if v.getLsbD 3 then { r with phase := 0x09#5 }
      else { r with result := some 4#3, phase := 0x12#5 }) ∧
    exec .pSample s = .next { r with sh := some 0xFF#8, phase := if v.getLsbD 2 then 0x10#5 else 0x0E#5 }

/-- R206, R207, R126: F_IDLE returns the lines to idle with result Ok; X_RET hands RESULT to the host and goes to IDLE,
writing no pin register; that `Ret(c)` by itself changes nothing but the trace is the model's reading (DEDUCED, log 10). -/
def Obligations.FinishAndReturn : Prop :=
  ∀ (s : State) (c : Code3),
    exec .fIdle s = .next
      { s with out := 0x10#5, result := some 0#3, phase := 0x12#5, trace := s.trace ++ [.out 0x10#5] } ∧
    (s.result = some c → exec .xRet s = .next { s with phase := 0x00#5, trace := s.trace ++ [.ret c] }) ∧
    exec (.evRet c) s = .next { s with trace := s.trace ++ [.ret c] }

/-- R205, R206, R207, R211: a sample that reads DONE high, whatever INIT_B is, ends the load with success: one filler
byte, the idle level, RET 0. -/
def Obligations.DoneSeenEndsWithSuccess : Prop :=
  ∀ (s : State) (v : PinWord) (vs : List PinWord), s.phase = 0x0D#5 → s.host = [] → s.bitcnt = 0#3 → s.half = false →
    s.ins = v :: vs → v.getLsbD 2 = true →
    run 19 s = .next
      { s with
        ins := vs, sh := some 0xFF#8, out := 0x10#5, result := some 0#3, phase := 0x00#5
        trace := s.trace ++ [.inp v] ++ shift8Events 0xFF#8 ++ [.out 0x10#5, .ret 0#3] }

/-- R209, R204, R208: with DONE low at every sample the load returns DoneTimeout at the first count that is at least
T0 + 100, with one filler before each count and DONE not sampled again. -/
def Obligations.TimeoutAtTheFirstElapsedCount : Prop :=
  ∀ (s : State) (vs : List PinWord) (ts : List Millis) (v : PinWord) (t a l : Millis) (vr : List PinWord)
    (tr : List Millis), s.phase = 0x0D#5 → s.host = [] → s.bitcnt = 0#3 → s.half = false → s.t0 = some a →
    s.lastNow = some l → s.ins = vs ++ v :: vr → s.nows = ts ++ t :: tr → vs.length = ts.length →
    (∀ w ∈ vs ++ [v], w.getLsbD 2 = false) → (l :: (ts ++ [t])).Pairwise (fun x y => x.toNat ≤ y.toNat) →
    (∀ u ∈ ts, u.toNat < a.toNat + 100) → a.toNat + 100 ≤ t.toNat →
    run (18 * (vs.length + 1) + 1) s = .next
      { s with
        ins := vr, nows := tr, lastNow := some t, sh := some 0xFF#8, out := 0x13#5, result := some 5#3
        phase := 0x00#5, trace := s.trace ++ pollEvents (vs ++ [v]) (ts ++ [t]) ++ [.ret 5#3] }

/-! ## Failures, results and pin words -/

/-- R236, R102: `raise` writes RESULT with the kind's code and goes to X_RET in the same step; it touches nothing else.
The result rows produce their codes so (log 12). -/
def Obligations.ResultsGoToXRet : Prop :=
  ∀ s : State,
    exec .resOk s = .next { s with result := some 0#3, phase := 0x12#5 } ∧
    exec .resBadMagic s = .next { s with result := some 1#3, phase := 0x12#5 } ∧
    exec .resImageTooLarge s = .next { s with result := some 2#3, phase := 0x12#5 } ∧
    exec .resInitTimeout s = .next { s with result := some 3#3, phase := 0x12#5 } ∧
    exec .resMidStreamAbort s = .next { s with result := some 4#3, phase := 0x12#5 } ∧
    exec .resDoneTimeout s = .next { s with result := some 5#3, phase := 0x12#5 }

/-- R95, R121: each OUT word of the table written whole, as a row and as the event `Out(v)`; PHASE stays (log 10). Any
other word, and an OE word other than 0x13, is refused (R104, 93 U6). -/
def Obligations.OutWordsAreWrittenWhole : Prop :=
  ∀ s : State,
    let w := fun v : PinWord => ({ s with out := v, trace := s.trace ++ [.out v] } : State)
    exec .pinReset s = .next (w 0x00#5) ∧ exec .pinIdle s = .next (w 0x10#5) ∧
    exec (.pinSetup false) s = .next (w 0x10#5) ∧ exec (.pinSetup true) s = .next (w 0x12#5) ∧
    exec (.pinClock false) s = .next (w 0x11#5) ∧ exec (.pinClock true) s = .next (w 0x13#5) ∧
    (∀ v ∈ [0x00#5, 0x10#5, 0x11#5, 0x12#5, 0x13#5], exec (.evOut v) s = .next (w v)) ∧
    (∀ v ∉ [0x00#5, 0x10#5, 0x11#5, 0x12#5, 0x13#5], exec (.evOut v) s = .refused (.pinWordNeverWritten v)) ∧
    (∀ v, v ≠ 0x13#5 → exec (.evOe v) s = .refused (.pinWordNeverWritten v))

/-- R97: what an IN word does where it is tested, by bit 3 in W_INIT and S_CHECK and by bit 2 in P_SAMPLE; where it is
not tested it has no effect (log 11). -/
def Obligations.InWordsActWhereTested : Prop :=
  ∀ (s : State) (v : PinWord),
    let r : State := { s with trace := s.trace ++ [.inp v] }
    (v.getLsbD 3 = true →
      (s.phase = 0x08#5 ∨ s.phase = 0x0B#5 → exec (.inInitReady v) s = .next { r with phase := 0x09#5 }) ∧
      (s.phase ≠ 0x08#5 → s.phase ≠ 0x0B#5 → exec (.inInitReady v) s = .next s)) ∧
    (v.getLsbD 3 = false →
      (s.phase = 0x08#5 → exec (.inInitNotReady v) s = .next { r with result := some 3#3, phase := 0x12#5 }) ∧
      (s.phase = 0x0B#5 → exec (.inInitNotReady v) s = .next { r with result := some 4#3, phase := 0x12#5 }) ∧
      (s.phase ≠ 0x08#5 → s.phase ≠ 0x0B#5 → exec (.inInitNotReady v) s = .next s)) ∧
    (v.getLsbD 2 = true →
      (s.phase = 0x0D#5 → exec (.inDone v) s = .next { r with sh := some 0xFF#8, phase := 0x10#5 }) ∧
      (s.phase ≠ 0x0D#5 → exec (.inDone v) s = .next s)) ∧
    (v.getLsbD 2 = false →
      (s.phase = 0x0D#5 → exec (.inNotDone v) s = .next { r with sh := some 0xFF#8, phase := 0x0E#5 }) ∧
      (s.phase ≠ 0x0D#5 → exec (.inNotDone v) s = .next s))

/-- R97, R31: the bits a test ignores make no difference: two samples that agree on the tested bit leave the same state,
but for the event that records them. -/
def Obligations.IgnoredInputBitsDoNotMatter : Prop :=
  ∀ (s : State) (v w : PinWord) (vs : List PinWord),
    let a : State := { s with ins := v :: vs }
    let b : State := { s with ins := w :: vs }
    let same := fun i : Instr => ∃ t : State,
      exec i a = .next { t with trace := s.trace ++ [.inp v] } ∧
      exec i b = .next { t with trace := s.trace ++ [.inp w] }
    (v.getLsbD 3 = w.getLsbD 3 → same .wInit ∧ same .sCheck) ∧ (v.getLsbD 2 = w.getLsbD 2 → same .pSample)

/-- R123: `MemRead` within the extent returns the bytes at ascending addresses and has no side effect. -/
def Obligations.MemReadReturnsTheBytes : Prop :=
  ∀ (s : State) (o n : Nat), o + n ≤ s.imageExtent →
    exec (.evRd o n) s = .next
      { s with trace := s.trace ++ [.rd o ((List.range n).map fun k => Memory.read s.mem (s.imageBase + o + k))] }

/-- R37, 93 U9: an operation that reads a session register holding no value has no meaning, and the model faults. -/
def Obligations.ReadingNoValueFaults : Prop :=
  ∀ s : State,
    (s.idx = none → exec .sFetch s = .fault (.noValue .idx)) ∧
    (∀ i, s.idx = some i → s.len = none → exec .sFetch s = .fault (.noValue .len)) ∧
    (s.sh = none → exec .sShift s = .fault (.noValue .sh) ∧ exec .pFill s = .fault (.noValue .sh) ∧
      exec .fComp s = .fault (.noValue .sh)) ∧
    (∀ b, s.sh = some b → s.half = true → s.bitcnt = 7#3 → s.idx = none →
      exec .sShift s = .fault (.noValue .idx)) ∧
    (∀ b, s.phase = 0x0A#5 → s.idx = none → exec (.shift8 b) s = .fault (.noValue .idx)) ∧
    (s.t0 = none → exec .pDeadline s = .fault (.noValue .t0)) ∧
    (s.result = none → exec .xRet s = .fault (.noValue .result))

/-- R32, R120, R121: the loader drives line k in 0, 1, 4 at the level of OUT bit k where OE bit k is 1, and does not drive
it where the bit is 0; lines 2 and 3 are the target's, which for an OE with bit 2 or 3 set is the model's reading
(DEDUCED, log 15). -/
def Obligations.LinesFollowOutWhereEnabled : Prop :=
  ∀ s : State, lineLevel s 2 = .target ∧ lineLevel s 3 = .target ∧
    ∀ k : Fin 5, k = 0 ∨ k = 1 ∨ k = 4 →
      (s.oe.getLsbD k = true → lineLevel s k = .driven (s.out.getLsbD k)) ∧
      (s.oe.getLsbD k = false → lineLevel s k = .undriven)

/-! ## Frames -/

/-- R63, R75: no instruction changes a byte of the image space, or where it lies, or what the host does. -/
def Obligations.NoInstructionWritesTheImage : Prop :=
  ∀ (i : Instr) (s t : State), exec i s = .next t →
    t.mem = s.mem ∧ (∀ a, Memory.read t.mem a = Memory.read s.mem a) ∧ t.imageBase = s.imageBase ∧
    t.imageExtent = s.imageExtent ∧ t.host = s.host

/-- R77, R29, R30: OE is written by D_OE and the OE rows alone; OUT by R_LOW, R_HIGH, the shifting steps, F_IDLE, SHIFT8
and the OUT rows alone. -/
def Obligations.PinRegistersChangeOnlyWhenWritten : Prop :=
  ∀ (i : Instr) (s t : State), exec i s = .next t →
    ((∀ m, i ≠ .evOe m) → i ∉ [.dOe, .pinOe] → t.oe = s.oe) ∧
    ((∀ v, i ≠ .evOut v) → (∀ b, i ≠ .shift8 b) → (∀ d, i ≠ .pinSetup d) → (∀ d, i ≠ .pinClock d) →
      i ∉ [.rLow, .rHigh, .sShift, .pFill, .fComp, .fIdle, .pinReset, .pinIdle] → t.out = s.out)

/-- R23, R22, R25: each session register and counter is written only by the phases the spec lists for it (RESULT by the
failing operations and F_IDLE), and by LOAD. -/
def Obligations.SessionRegistersChangeOnlyWhenWritten : Prop :=
  ∀ (p : Phase) (s t : State), exec p.instr s = .next t →
    (p ∉ [.idle, .vLen] → t.len = s.len) ∧
    (p ∉ [.idle, .sShift] → t.idx = s.idx) ∧
    (p ∉ [.idle, .sFetch, .pSample] → t.sh = s.sh) ∧
    (p ∉ [.idle, .pAnchor] → t.t0 = s.t0) ∧
    (p ∉ [.idle, .vMagic, .vLen, .wInit, .sCheck, .pDeadline, .fIdle] → t.result = s.result) ∧
    (p ∉ [.idle, .sShift, .pFill, .fComp] → t.bitcnt = s.bitcnt ∧ t.half = s.half)

/-- R99, R77: an operation makes exactly one interface event, of the kind the table gives its phase, but for IDLE without
LOAD and S_FETCH with IDX equal to LEN, which make none; IN and NOW answers are used up by the sampling and time-reading phases alone. -/
def Obligations.EachOperationMakesItsOneEvent : Prop :=
  ∀ (p : Phase) (s t : State), exec p.instr s = .next t →
    ((t.trace = s.trace ∧ ((p = .idle ∧ s.host.head? ≠ some .load) ∨ (p = .sFetch ∧ s.idx = s.len))) ∨
      ∃ e, t.trace = s.trace ++ [e] ∧
      match e with
      | .load => p = .idle
      | .rd _ _ => p ∈ [.vMagic, .vLen, .sFetch]
      | .oe _ => p = .dOe
      | .out _ => p ∈ [.rLow, .rHigh, .sShift, .pFill, .fComp, .fIdle]
      | .inp _ => p ∈ [.wInit, .sCheck, .pSample]
      | .now _ => p ∈ [.pAnchor, .pDeadline]
      | .wait _ => p ∈ [.rLowWait, .rHighWait]
      | .ret _ => p = .xRet) ∧
    (p ∉ [.wInit, .sCheck, .pSample] → t.ins = s.ins ∧ t.inDraws = s.inDraws) ∧
    (p ∉ [.pAnchor, .pDeadline] → t.nows = s.nows ∧ t.nowDraws = s.nowDraws)

/-! ## Whole-machine statements -/

/-- R35, R41: the invariant holds after reset. -/
def Obligations.ResetMeetsTheInvariant : Prop := Inv State.reset

/-- R41, R33, R95, R37: every step keeps the invariant, whatever the host does and the environment answers. That the
clauses on OE and OUT (`oeWord`, `outWord`) hold in IDLE and up to D_OE too is the model's choice: between loads, where
R265 and R278 leave it open, nothing but the loader writes the two registers (DESIGN CHOICE, unsafe, log 16). -/
def Obligations.StepKeepsTheInvariant : Prop :=
  ∀ s t : State, Inv s → step s = .next t → Inv t

/-- R37, R104: in a state that meets the invariant no step faults: no register is read before it holds a value, and PHASE
never leaves the nineteen codes. -/
def Obligations.InvariantStatesDoNotFault : Prop :=
  ∀ (s : State) (r : Fault), Inv s → step s ≠ .fault r

/-- R239: the pin registers when a load returns after the reset pulse, by the code it returns. -/
def Obligations.PinsAtReturnByResult : Prop :=
  ∀ (s t : State) (c : Code3), Inv s → step s = .next t → t.trace = s.trace ++ [.ret c] →
    t.phase = 0x00#5 ∧
    (c = 0#3 → t.oe = 0x13#5 ∧ t.out = 0x10#5) ∧ (c = 3#3 → t.oe = 0x13#5 ∧ t.out = 0x10#5) ∧
    (c = 4#3 → t.oe = 0x13#5 ∧ ∃ b, s.sh = some b ∧ t.out = if b.getLsbD 0 then 0x13#5 else 0x11#5) ∧
    (c = 5#3 → t.oe = 0x13#5 ∧ t.out = 0x13#5) ∧ c.toNat ≤ 5

/-- R41 c and d, R279: once OE is 0x13 only block reset changes it, and once PROGRAM_B is high only R_LOW and block reset
lower it. Read over a whole run, IDLE between loads included, this rests on the model's choice that nothing but the
loader writes OE or OUT there, which R265 and R278 leave open (DESIGN CHOICE, unsafe, log 16). -/
def Obligations.LinesStayDrivenAndReleased : Prop :=
  ∀ s t : State, step s = .next t → s.host.head? ≠ some .blockReset →
    (s.oe = 0x13#5 → t.oe = 0x13#5) ∧
    (s.phase ≠ 0x04#5 → s.out.getLsbD 4 = true → t.out.getLsbD 4 = true)

/-- R273, R274, R184: in a state that meets the invariant, a step that raises CCLK leaves DIN as it was, and PROGRAM_B is
high before and after. -/
def Obligations.DinIsStableAtEveryRisingEdge : Prop :=
  ∀ s t : State, Inv s → step s = .next t → s.out.getLsbD 0 = false → t.out.getLsbD 0 = true →
    t.out.getLsbD 1 = s.out.getLsbD 1 ∧ s.out.getLsbD 4 = true ∧ t.out.getLsbD 4 = true

/-- R144, R270, R101: only a header with the right magic and an accepted length leads to D_OE, and no step of IDLE,
V_MAGIC, V_LEN or X_RET moves or samples anything outside the image. -/
def Obligations.NothingMovesBeforeValidation : Prop :=
  ∀ s t : State, step s = .next t →
    (t.phase = 0x03#5 → s.phase = 0x02#5 ∧ (be32OfBytes (imageBytes s 4 4)).toNat ≤ 0x220000) ∧
    (t.phase = 0x02#5 → s.phase = 0x01#5 ∧ be32OfBytes (imageBytes s 0 4) = 0x53415231#32) ∧
    (s.phase ∈ [0x00#5, 0x01#5, 0x02#5, 0x12#5] → s.host.head? ≠ some .blockReset →
      t.oe = s.oe ∧ t.out = s.out ∧
      (t.trace = s.trace ∨ ∃ e, t.trace = s.trace ++ [e] ∧ hardwareEvent e = false))
end

