-- ==== Sys2Proof/Laws/Codes.lean ====
section
/-!
SUPPORT. Phase and result codes: every phase is the one its code names, and codes tell phases apart.
-/

namespace Sys2Proof

@[simp] theorem Phase.ofCode_code (p : Phase) : Phase.ofCode p.code = some p := by cases p <;> rfl

theorem Phase.code_inj {p q : Phase} (h : p.code = q.code) : p = q := by
  have := congrArg Phase.ofCode h
  simpa using this

@[simp] theorem Phase.code_eq_iff (p q : Phase) : p.code = q.code ↔ p = q :=
  ⟨Phase.code_inj, fun h => h ▸ rfl⟩

theorem Phase.code_of_ofCode {c : PhaseCode} {p : Phase} (h : Phase.ofCode c = some p) : p.code = c := by
  simpa using List.find?_some h

theorem Kind.code_inj {j k : Kind} (h : j.code = k.code) : j = k := by
  revert h; cases j <;> cases k <;> decide

@[simp] theorem Kind.code_eq_iff (j k : Kind) : j.code = k.code ↔ j = k := ⟨Kind.code_inj, fun h => h ▸ rfl⟩

end Sys2Proof
end

