-- ==== Sys2Proof/Laws/Memory.lean ====
section
/-!
SUPPORT. The image space: every operation keeps the canonical form, a read after a write to the same place gives what
was written, and a write leaves every other place alone.
-/

namespace Sys2Proof.Machine

theorem Memory.wfFrom_mono {lo lo' : Nat} (h : lo' ≤ lo) :
    ∀ {m : List Host.Cell}, Memory.wfFrom lo m = true → Memory.wfFrom lo' m = true
  | [], _ => rfl
  | (a, b) :: rest, hm => by
    simp only [Memory.wfFrom, Bool.and_eq_true, decide_eq_true_eq] at hm ⊢
    exact ⟨⟨by omega, hm.1.2⟩, hm.2⟩

theorem Memory.erase_wfFrom {lo : Nat} (x : Nat) :
    ∀ {m : List Host.Cell}, Memory.wfFrom lo m = true → Memory.wfFrom lo (Memory.erase m x) = true
  | [], _ => rfl
  | (a, b) :: rest, hm => by
    have hm' := hm
    simp only [Memory.wfFrom, Bool.and_eq_true, decide_eq_true_eq] at hm'
    unfold Memory.erase
    split
    · exact Memory.wfFrom_mono (by omega) hm'.2
    · simp only [Memory.wfFrom, Bool.and_eq_true, decide_eq_true_eq]
      exact ⟨hm'.1, Memory.erase_wfFrom x hm'.2⟩

theorem Memory.insert_wfFrom {lo x : Nat} {v : Byte} (hlo : lo ≤ x) (hv : v ≠ Memory.unlisted) :
    ∀ {m : List Host.Cell}, Memory.wfFrom lo m = true → Memory.wfFrom lo (Memory.insert m x v) = true
  | [], _ => by simp [Memory.insert, Memory.wfFrom, hlo, hv]
  | (a, b) :: rest, hm => by
    have hm' := hm
    simp only [Memory.wfFrom, Bool.and_eq_true, decide_eq_true_eq] at hm'
    unfold Memory.insert
    split
    · simp only [Memory.wfFrom, Bool.and_eq_true, decide_eq_true_eq]
      exact ⟨⟨hlo, by simpa using hv⟩, ⟨by omega, hm'.1.2⟩, hm'.2⟩
    · split
      · subst_vars
        simp only [Memory.wfFrom, Bool.and_eq_true, decide_eq_true_eq]
        exact ⟨⟨hlo, by simpa using hv⟩, hm'.2⟩
      · simp only [Memory.wfFrom, Bool.and_eq_true, decide_eq_true_eq]
        exact ⟨hm'.1, Memory.insert_wfFrom (by omega) hv hm'.2⟩

/-- Placing a byte keeps the canonical form. -/
theorem Memory.write_wf {m : List Host.Cell} (x : Nat) (v : Byte) (hm : Memory.wf m = true) :
    Memory.wf (Memory.write m x v) = true := by
  unfold Memory.write
  split
  · exact Memory.erase_wfFrom x hm
  · exact Memory.insert_wfFrom (Nat.zero_le x) (by assumption) hm

/-- Placing bytes keeps the canonical form. -/
theorem Memory.writeBytes_wf : ∀ (vs : List Byte) {m : List Host.Cell} (x : Nat), Memory.wf m = true →
    Memory.wf (Memory.writeBytes m x vs) = true
  | [], _, _, hm => hm
  | v :: vs, _, x, hm => Memory.writeBytes_wf vs (x + 1) (Memory.write_wf x v hm)

theorem Memory.read_of_lt {lo x : Nat} (hx : x < lo) :
    ∀ {m : List Host.Cell}, Memory.wfFrom lo m = true → Memory.read m x = Memory.unlisted
  | [], _ => rfl
  | (a, b) :: rest, hm => by
    simp only [Memory.wfFrom, Bool.and_eq_true, decide_eq_true_eq] at hm
    have hne : x ≠ a := by omega
    simp only [Memory.read, hne, if_false]
    exact Memory.read_of_lt (by omega) hm.2

theorem Memory.read_erase {lo : Nat} (x y : Nat) :
    ∀ {m : List Host.Cell}, Memory.wfFrom lo m = true →
      Memory.read (Memory.erase m x) y = if y = x then Memory.unlisted else Memory.read m y
  | [], _ => by simp [Memory.erase, Memory.read]
  | (a, b) :: rest, hm => by
    simp only [Memory.wfFrom, Bool.and_eq_true, decide_eq_true_eq] at hm
    unfold Memory.erase
    split
    · subst_vars
      by_cases hy : y = a
      · subst hy; simp [Memory.read_of_lt (Nat.lt_succ_self _) hm.2]
      · simp [Memory.read, hy]
    · rename_i hxa
      by_cases hy : y = a
      · subst hy; simp [Memory.read, Ne.symm hxa]
      · simp only [Memory.read, hy, if_false]; exact Memory.read_erase x y hm.2

theorem Memory.read_insert (x y : Nat) (v : Byte) :
    ∀ {m : List Host.Cell}, Memory.read (Memory.insert m x v) y = if y = x then v else Memory.read m y
  | [] => by simp [Memory.insert, Memory.read]
  | (a, b) :: rest => by
    unfold Memory.insert
    split
    · simp [Memory.read]
    · split
      · subst_vars; simp only [Memory.read]; split <;> simp_all
      · rename_i hxa
        by_cases hy : y = a
        · subst hy; simp [Memory.read, Ne.symm hxa]
        · simp only [Memory.read, hy, if_false]; exact Memory.read_insert x y v

/-- Reading after placing a byte: the byte at its own address, what was there before at every other. -/
theorem Memory.read_write {m : List Host.Cell} (x y : Nat) (v : Byte) (hm : Memory.wf m = true) :
    Memory.read (Memory.write m x v) y = if y = x then v else Memory.read m y := by
  unfold Memory.write
  split
  · subst_vars; exact Memory.read_erase x y hm
  · exact Memory.read_insert x y v

@[simp] theorem Memory.readBytes_zero (m : List Host.Cell) (x : Nat) : Memory.readBytes m x 0 = [] := rfl

@[simp] theorem Memory.readBytes_one (m : List Host.Cell) (x : Nat) :
    Memory.readBytes m x 1 = [Memory.read m x] := rfl

@[simp] theorem Memory.readBytes_length (m : List Host.Cell) : ∀ (n x : Nat),
    (Memory.readBytes m x n).length = n
  | 0, _ => rfl
  | n + 1, x => by simp [Memory.readBytes, Memory.readBytes_length m n (x + 1)]

theorem State.reset_memory_wf : Memory.wf State.reset.mem = true := rfl

end Sys2Proof.Machine
end

