-- ==== Sys2Proof/Laws/State.lean ====
section
/-!
SUPPORT. One lemma per field per shared update of the state, so that no proof unfolds a record update.
-/

namespace Sys2Proof.Machine

@[simp] theorem emit_phase (e : Event) (s : State) : (emit e s).phase = s.phase := rfl
@[simp] theorem emit_bitcnt (e : Event) (s : State) : (emit e s).bitcnt = s.bitcnt := rfl
@[simp] theorem emit_half (e : Event) (s : State) : (emit e s).half = s.half := rfl
@[simp] theorem emit_len (e : Event) (s : State) : (emit e s).len = s.len := rfl
@[simp] theorem emit_idx (e : Event) (s : State) : (emit e s).idx = s.idx := rfl
@[simp] theorem emit_sh (e : Event) (s : State) : (emit e s).sh = s.sh := rfl
@[simp] theorem emit_t0 (e : Event) (s : State) : (emit e s).t0 = s.t0 := rfl
@[simp] theorem emit_result (e : Event) (s : State) : (emit e s).result = s.result := rfl
@[simp] theorem emit_oe (e : Event) (s : State) : (emit e s).oe = s.oe := rfl
@[simp] theorem emit_out (e : Event) (s : State) : (emit e s).out = s.out := rfl
@[simp] theorem emit_imageBase (e : Event) (s : State) : (emit e s).imageBase = s.imageBase := rfl
@[simp] theorem emit_imageExtent (e : Event) (s : State) : (emit e s).imageExtent = s.imageExtent := rfl
@[simp] theorem emit_mem (e : Event) (s : State) : (emit e s).mem = s.mem := rfl
@[simp] theorem emit_host (e : Event) (s : State) : (emit e s).host = s.host := rfl
@[simp] theorem emit_ins (e : Event) (s : State) : (emit e s).ins = s.ins := rfl
@[simp] theorem emit_nows (e : Event) (s : State) : (emit e s).nows = s.nows := rfl
@[simp] theorem emit_inDraws (e : Event) (s : State) : (emit e s).inDraws = s.inDraws := rfl
@[simp] theorem emit_nowDraws (e : Event) (s : State) : (emit e s).nowDraws = s.nowDraws := rfl
@[simp] theorem emit_lastNow (e : Event) (s : State) : (emit e s).lastNow = s.lastNow := rfl
@[simp] theorem emit_trace (e : Event) (s : State) : (emit e s).trace = s.trace ++ [e] := rfl

@[simp] theorem goto_phase (p : Phase) (s : State) : (goto p s).phase = p.code := rfl
@[simp] theorem goto_bitcnt (p : Phase) (s : State) : (goto p s).bitcnt = s.bitcnt := rfl
@[simp] theorem goto_half (p : Phase) (s : State) : (goto p s).half = s.half := rfl
@[simp] theorem goto_len (p : Phase) (s : State) : (goto p s).len = s.len := rfl
@[simp] theorem goto_idx (p : Phase) (s : State) : (goto p s).idx = s.idx := rfl
@[simp] theorem goto_sh (p : Phase) (s : State) : (goto p s).sh = s.sh := rfl
@[simp] theorem goto_t0 (p : Phase) (s : State) : (goto p s).t0 = s.t0 := rfl
@[simp] theorem goto_result (p : Phase) (s : State) : (goto p s).result = s.result := rfl
@[simp] theorem goto_oe (p : Phase) (s : State) : (goto p s).oe = s.oe := rfl
@[simp] theorem goto_out (p : Phase) (s : State) : (goto p s).out = s.out := rfl
@[simp] theorem goto_imageBase (p : Phase) (s : State) : (goto p s).imageBase = s.imageBase := rfl
@[simp] theorem goto_imageExtent (p : Phase) (s : State) : (goto p s).imageExtent = s.imageExtent := rfl
@[simp] theorem goto_mem (p : Phase) (s : State) : (goto p s).mem = s.mem := rfl
@[simp] theorem goto_host (p : Phase) (s : State) : (goto p s).host = s.host := rfl
@[simp] theorem goto_ins (p : Phase) (s : State) : (goto p s).ins = s.ins := rfl
@[simp] theorem goto_nows (p : Phase) (s : State) : (goto p s).nows = s.nows := rfl
@[simp] theorem goto_inDraws (p : Phase) (s : State) : (goto p s).inDraws = s.inDraws := rfl
@[simp] theorem goto_nowDraws (p : Phase) (s : State) : (goto p s).nowDraws = s.nowDraws := rfl
@[simp] theorem goto_lastNow (p : Phase) (s : State) : (goto p s).lastNow = s.lastNow := rfl
@[simp] theorem goto_trace (p : Phase) (s : State) : (goto p s).trace = s.trace := rfl

@[simp] theorem writeOe_phase (m : PinWord) (s : State) : (writeOe m s).phase = s.phase := rfl
@[simp] theorem writeOe_bitcnt (m : PinWord) (s : State) : (writeOe m s).bitcnt = s.bitcnt := rfl
@[simp] theorem writeOe_half (m : PinWord) (s : State) : (writeOe m s).half = s.half := rfl
@[simp] theorem writeOe_len (m : PinWord) (s : State) : (writeOe m s).len = s.len := rfl
@[simp] theorem writeOe_idx (m : PinWord) (s : State) : (writeOe m s).idx = s.idx := rfl
@[simp] theorem writeOe_sh (m : PinWord) (s : State) : (writeOe m s).sh = s.sh := rfl
@[simp] theorem writeOe_t0 (m : PinWord) (s : State) : (writeOe m s).t0 = s.t0 := rfl
@[simp] theorem writeOe_result (m : PinWord) (s : State) : (writeOe m s).result = s.result := rfl
@[simp] theorem writeOe_oe (m : PinWord) (s : State) : (writeOe m s).oe = m := rfl
@[simp] theorem writeOe_out (m : PinWord) (s : State) : (writeOe m s).out = s.out := rfl
@[simp] theorem writeOe_imageBase (m : PinWord) (s : State) : (writeOe m s).imageBase = s.imageBase := rfl
@[simp] theorem writeOe_imageExtent (m : PinWord) (s : State) : (writeOe m s).imageExtent = s.imageExtent := rfl
@[simp] theorem writeOe_mem (m : PinWord) (s : State) : (writeOe m s).mem = s.mem := rfl
@[simp] theorem writeOe_host (m : PinWord) (s : State) : (writeOe m s).host = s.host := rfl
@[simp] theorem writeOe_ins (m : PinWord) (s : State) : (writeOe m s).ins = s.ins := rfl
@[simp] theorem writeOe_nows (m : PinWord) (s : State) : (writeOe m s).nows = s.nows := rfl
@[simp] theorem writeOe_inDraws (m : PinWord) (s : State) : (writeOe m s).inDraws = s.inDraws := rfl
@[simp] theorem writeOe_nowDraws (m : PinWord) (s : State) : (writeOe m s).nowDraws = s.nowDraws := rfl
@[simp] theorem writeOe_lastNow (m : PinWord) (s : State) : (writeOe m s).lastNow = s.lastNow := rfl
@[simp] theorem writeOe_trace (m : PinWord) (s : State) : (writeOe m s).trace = s.trace ++ [.oe m] := rfl

@[simp] theorem writeOut_phase (v : PinWord) (s : State) : (writeOut v s).phase = s.phase := rfl
@[simp] theorem writeOut_bitcnt (v : PinWord) (s : State) : (writeOut v s).bitcnt = s.bitcnt := rfl
@[simp] theorem writeOut_half (v : PinWord) (s : State) : (writeOut v s).half = s.half := rfl
@[simp] theorem writeOut_len (v : PinWord) (s : State) : (writeOut v s).len = s.len := rfl
@[simp] theorem writeOut_idx (v : PinWord) (s : State) : (writeOut v s).idx = s.idx := rfl
@[simp] theorem writeOut_sh (v : PinWord) (s : State) : (writeOut v s).sh = s.sh := rfl
@[simp] theorem writeOut_t0 (v : PinWord) (s : State) : (writeOut v s).t0 = s.t0 := rfl
@[simp] theorem writeOut_result (v : PinWord) (s : State) : (writeOut v s).result = s.result := rfl
@[simp] theorem writeOut_oe (v : PinWord) (s : State) : (writeOut v s).oe = s.oe := rfl
@[simp] theorem writeOut_out (v : PinWord) (s : State) : (writeOut v s).out = v := rfl
@[simp] theorem writeOut_imageBase (v : PinWord) (s : State) : (writeOut v s).imageBase = s.imageBase := rfl
@[simp] theorem writeOut_imageExtent (v : PinWord) (s : State) : (writeOut v s).imageExtent = s.imageExtent := rfl
@[simp] theorem writeOut_mem (v : PinWord) (s : State) : (writeOut v s).mem = s.mem := rfl
@[simp] theorem writeOut_host (v : PinWord) (s : State) : (writeOut v s).host = s.host := rfl
@[simp] theorem writeOut_ins (v : PinWord) (s : State) : (writeOut v s).ins = s.ins := rfl
@[simp] theorem writeOut_nows (v : PinWord) (s : State) : (writeOut v s).nows = s.nows := rfl
@[simp] theorem writeOut_inDraws (v : PinWord) (s : State) : (writeOut v s).inDraws = s.inDraws := rfl
@[simp] theorem writeOut_nowDraws (v : PinWord) (s : State) : (writeOut v s).nowDraws = s.nowDraws := rfl
@[simp] theorem writeOut_lastNow (v : PinWord) (s : State) : (writeOut v s).lastNow = s.lastNow := rfl
@[simp] theorem writeOut_trace (v : PinWord) (s : State) : (writeOut v s).trace = s.trace ++ [.out v] := rfl

@[simp] theorem wait_phase (us : Word32) (s : State) : (wait us s).phase = s.phase := rfl
@[simp] theorem wait_bitcnt (us : Word32) (s : State) : (wait us s).bitcnt = s.bitcnt := rfl
@[simp] theorem wait_half (us : Word32) (s : State) : (wait us s).half = s.half := rfl
@[simp] theorem wait_len (us : Word32) (s : State) : (wait us s).len = s.len := rfl
@[simp] theorem wait_idx (us : Word32) (s : State) : (wait us s).idx = s.idx := rfl
@[simp] theorem wait_sh (us : Word32) (s : State) : (wait us s).sh = s.sh := rfl
@[simp] theorem wait_t0 (us : Word32) (s : State) : (wait us s).t0 = s.t0 := rfl
@[simp] theorem wait_result (us : Word32) (s : State) : (wait us s).result = s.result := rfl
@[simp] theorem wait_oe (us : Word32) (s : State) : (wait us s).oe = s.oe := rfl
@[simp] theorem wait_out (us : Word32) (s : State) : (wait us s).out = s.out := rfl
@[simp] theorem wait_imageBase (us : Word32) (s : State) : (wait us s).imageBase = s.imageBase := rfl
@[simp] theorem wait_imageExtent (us : Word32) (s : State) : (wait us s).imageExtent = s.imageExtent := rfl
@[simp] theorem wait_mem (us : Word32) (s : State) : (wait us s).mem = s.mem := rfl
@[simp] theorem wait_host (us : Word32) (s : State) : (wait us s).host = s.host := rfl
@[simp] theorem wait_ins (us : Word32) (s : State) : (wait us s).ins = s.ins := rfl
@[simp] theorem wait_nows (us : Word32) (s : State) : (wait us s).nows = s.nows := rfl
@[simp] theorem wait_inDraws (us : Word32) (s : State) : (wait us s).inDraws = s.inDraws := rfl
@[simp] theorem wait_nowDraws (us : Word32) (s : State) : (wait us s).nowDraws = s.nowDraws := rfl
@[simp] theorem wait_lastNow (us : Word32) (s : State) : (wait us s).lastNow = s.lastNow := rfl
@[simp] theorem wait_trace (us : Word32) (s : State) : (wait us s).trace = s.trace ++ [.wait us] := rfl

@[simp] theorem finish_phase (k : Kind) (s : State) : (finish k s).phase = Phase.xRet.code := rfl
@[simp] theorem finish_bitcnt (k : Kind) (s : State) : (finish k s).bitcnt = s.bitcnt := rfl
@[simp] theorem finish_half (k : Kind) (s : State) : (finish k s).half = s.half := rfl
@[simp] theorem finish_len (k : Kind) (s : State) : (finish k s).len = s.len := rfl
@[simp] theorem finish_idx (k : Kind) (s : State) : (finish k s).idx = s.idx := rfl
@[simp] theorem finish_sh (k : Kind) (s : State) : (finish k s).sh = s.sh := rfl
@[simp] theorem finish_t0 (k : Kind) (s : State) : (finish k s).t0 = s.t0 := rfl
@[simp] theorem finish_result (k : Kind) (s : State) : (finish k s).result = some k.code := rfl
@[simp] theorem finish_oe (k : Kind) (s : State) : (finish k s).oe = s.oe := rfl
@[simp] theorem finish_out (k : Kind) (s : State) : (finish k s).out = s.out := rfl
@[simp] theorem finish_imageBase (k : Kind) (s : State) : (finish k s).imageBase = s.imageBase := rfl
@[simp] theorem finish_imageExtent (k : Kind) (s : State) : (finish k s).imageExtent = s.imageExtent := rfl
@[simp] theorem finish_mem (k : Kind) (s : State) : (finish k s).mem = s.mem := rfl
@[simp] theorem finish_host (k : Kind) (s : State) : (finish k s).host = s.host := rfl
@[simp] theorem finish_ins (k : Kind) (s : State) : (finish k s).ins = s.ins := rfl
@[simp] theorem finish_nows (k : Kind) (s : State) : (finish k s).nows = s.nows := rfl
@[simp] theorem finish_inDraws (k : Kind) (s : State) : (finish k s).inDraws = s.inDraws := rfl
@[simp] theorem finish_nowDraws (k : Kind) (s : State) : (finish k s).nowDraws = s.nowDraws := rfl
@[simp] theorem finish_lastNow (k : Kind) (s : State) : (finish k s).lastNow = s.lastNow := rfl
@[simp] theorem finish_trace (k : Kind) (s : State) : (finish k s).trace = s.trace := rfl

@[simp] theorem raise_phase (k : Kind) (s : State) : (raise k s).phase = Phase.xRet.code := rfl
@[simp] theorem raise_bitcnt (k : Kind) (s : State) : (raise k s).bitcnt = s.bitcnt := rfl
@[simp] theorem raise_half (k : Kind) (s : State) : (raise k s).half = s.half := rfl
@[simp] theorem raise_len (k : Kind) (s : State) : (raise k s).len = s.len := rfl
@[simp] theorem raise_idx (k : Kind) (s : State) : (raise k s).idx = s.idx := rfl
@[simp] theorem raise_sh (k : Kind) (s : State) : (raise k s).sh = s.sh := rfl
@[simp] theorem raise_t0 (k : Kind) (s : State) : (raise k s).t0 = s.t0 := rfl
@[simp] theorem raise_result (k : Kind) (s : State) : (raise k s).result = some k.code := rfl
@[simp] theorem raise_oe (k : Kind) (s : State) : (raise k s).oe = s.oe := rfl
@[simp] theorem raise_out (k : Kind) (s : State) : (raise k s).out = s.out := rfl
@[simp] theorem raise_imageBase (k : Kind) (s : State) : (raise k s).imageBase = s.imageBase := rfl
@[simp] theorem raise_imageExtent (k : Kind) (s : State) : (raise k s).imageExtent = s.imageExtent := rfl
@[simp] theorem raise_mem (k : Kind) (s : State) : (raise k s).mem = s.mem := rfl
@[simp] theorem raise_host (k : Kind) (s : State) : (raise k s).host = s.host := rfl
@[simp] theorem raise_ins (k : Kind) (s : State) : (raise k s).ins = s.ins := rfl
@[simp] theorem raise_nows (k : Kind) (s : State) : (raise k s).nows = s.nows := rfl
@[simp] theorem raise_inDraws (k : Kind) (s : State) : (raise k s).inDraws = s.inDraws := rfl
@[simp] theorem raise_nowDraws (k : Kind) (s : State) : (raise k s).nowDraws = s.nowDraws := rfl
@[simp] theorem raise_lastNow (k : Kind) (s : State) : (raise k s).lastNow = s.lastNow := rfl
@[simp] theorem raise_trace (k : Kind) (s : State) : (raise k s).trace = s.trace := rfl

@[simp] theorem leave_phase (c : Code3) (s : State) : (leave c s).phase = Phase.idle.code := rfl
@[simp] theorem leave_bitcnt (c : Code3) (s : State) : (leave c s).bitcnt = s.bitcnt := rfl
@[simp] theorem leave_half (c : Code3) (s : State) : (leave c s).half = s.half := rfl
@[simp] theorem leave_len (c : Code3) (s : State) : (leave c s).len = s.len := rfl
@[simp] theorem leave_idx (c : Code3) (s : State) : (leave c s).idx = s.idx := rfl
@[simp] theorem leave_sh (c : Code3) (s : State) : (leave c s).sh = s.sh := rfl
@[simp] theorem leave_t0 (c : Code3) (s : State) : (leave c s).t0 = s.t0 := rfl
@[simp] theorem leave_result (c : Code3) (s : State) : (leave c s).result = s.result := rfl
@[simp] theorem leave_oe (c : Code3) (s : State) : (leave c s).oe = s.oe := rfl
@[simp] theorem leave_out (c : Code3) (s : State) : (leave c s).out = s.out := rfl
@[simp] theorem leave_imageBase (c : Code3) (s : State) : (leave c s).imageBase = s.imageBase := rfl
@[simp] theorem leave_imageExtent (c : Code3) (s : State) : (leave c s).imageExtent = s.imageExtent := rfl
@[simp] theorem leave_mem (c : Code3) (s : State) : (leave c s).mem = s.mem := rfl
@[simp] theorem leave_host (c : Code3) (s : State) : (leave c s).host = s.host := rfl
@[simp] theorem leave_ins (c : Code3) (s : State) : (leave c s).ins = s.ins := rfl
@[simp] theorem leave_nows (c : Code3) (s : State) : (leave c s).nows = s.nows := rfl
@[simp] theorem leave_inDraws (c : Code3) (s : State) : (leave c s).inDraws = s.inDraws := rfl
@[simp] theorem leave_nowDraws (c : Code3) (s : State) : (leave c s).nowDraws = s.nowDraws := rfl
@[simp] theorem leave_lastNow (c : Code3) (s : State) : (leave c s).lastNow = s.lastNow := rfl
@[simp] theorem leave_trace (c : Code3) (s : State) : (leave c s).trace = s.trace ++ [.ret c] := rfl

@[simp] theorem startSession_phase (s : State) : (startSession s).phase = Phase.vMagic.code := rfl
@[simp] theorem startSession_bitcnt (s : State) : (startSession s).bitcnt = 0#3 := rfl
@[simp] theorem startSession_half (s : State) : (startSession s).half = false := rfl
@[simp] theorem startSession_len (s : State) : (startSession s).len = none := rfl
@[simp] theorem startSession_idx (s : State) : (startSession s).idx = some 0#32 := rfl
@[simp] theorem startSession_sh (s : State) : (startSession s).sh = none := rfl
@[simp] theorem startSession_t0 (s : State) : (startSession s).t0 = none := rfl
@[simp] theorem startSession_result (s : State) : (startSession s).result = none := rfl
@[simp] theorem startSession_oe (s : State) : (startSession s).oe = s.oe := rfl
@[simp] theorem startSession_out (s : State) : (startSession s).out = s.out := rfl
@[simp] theorem startSession_imageBase (s : State) : (startSession s).imageBase = s.imageBase := rfl
@[simp] theorem startSession_imageExtent (s : State) : (startSession s).imageExtent = s.imageExtent := rfl
@[simp] theorem startSession_mem (s : State) : (startSession s).mem = s.mem := rfl
@[simp] theorem startSession_host (s : State) : (startSession s).host = s.host := rfl
@[simp] theorem startSession_ins (s : State) : (startSession s).ins = s.ins := rfl
@[simp] theorem startSession_nows (s : State) : (startSession s).nows = s.nows := rfl
@[simp] theorem startSession_inDraws (s : State) : (startSession s).inDraws = s.inDraws := rfl
@[simp] theorem startSession_nowDraws (s : State) : (startSession s).nowDraws = s.nowDraws := rfl
@[simp] theorem startSession_lastNow (s : State) : (startSession s).lastNow = none := rfl
@[simp] theorem startSession_trace (s : State) : (startSession s).trace = s.trace ++ [.load] := rfl

@[simp] theorem blockReset_phase (s : State) : (blockReset s).phase = Phase.idle.code := rfl
@[simp] theorem blockReset_bitcnt (s : State) : (blockReset s).bitcnt = 0#3 := rfl
@[simp] theorem blockReset_half (s : State) : (blockReset s).half = false := rfl
@[simp] theorem blockReset_len (s : State) : (blockReset s).len = none := rfl
@[simp] theorem blockReset_idx (s : State) : (blockReset s).idx = none := rfl
@[simp] theorem blockReset_sh (s : State) : (blockReset s).sh = none := rfl
@[simp] theorem blockReset_t0 (s : State) : (blockReset s).t0 = none := rfl
@[simp] theorem blockReset_result (s : State) : (blockReset s).result = none := rfl
@[simp] theorem blockReset_oe (s : State) : (blockReset s).oe = 0#5 := rfl
@[simp] theorem blockReset_out (s : State) : (blockReset s).out = 0#5 := rfl
@[simp] theorem blockReset_imageBase (s : State) : (blockReset s).imageBase = s.imageBase := rfl
@[simp] theorem blockReset_imageExtent (s : State) : (blockReset s).imageExtent = s.imageExtent := rfl
@[simp] theorem blockReset_mem (s : State) : (blockReset s).mem = s.mem := rfl
@[simp] theorem blockReset_host (s : State) : (blockReset s).host = s.host := rfl
@[simp] theorem blockReset_ins (s : State) : (blockReset s).ins = s.ins := rfl
@[simp] theorem blockReset_nows (s : State) : (blockReset s).nows = s.nows := rfl
@[simp] theorem blockReset_inDraws (s : State) : (blockReset s).inDraws = s.inDraws := rfl
@[simp] theorem blockReset_nowDraws (s : State) : (blockReset s).nowDraws = s.nowDraws := rfl
@[simp] theorem blockReset_lastNow (s : State) : (blockReset s).lastNow = none := rfl
@[simp] theorem blockReset_trace (s : State) : (blockReset s).trace = s.trace := rfl

@[simp] theorem popHost_phase (s : State) : (popHost s).phase = s.phase := rfl
@[simp] theorem popHost_bitcnt (s : State) : (popHost s).bitcnt = s.bitcnt := rfl
@[simp] theorem popHost_half (s : State) : (popHost s).half = s.half := rfl
@[simp] theorem popHost_len (s : State) : (popHost s).len = s.len := rfl
@[simp] theorem popHost_idx (s : State) : (popHost s).idx = s.idx := rfl
@[simp] theorem popHost_sh (s : State) : (popHost s).sh = s.sh := rfl
@[simp] theorem popHost_t0 (s : State) : (popHost s).t0 = s.t0 := rfl
@[simp] theorem popHost_result (s : State) : (popHost s).result = s.result := rfl
@[simp] theorem popHost_oe (s : State) : (popHost s).oe = s.oe := rfl
@[simp] theorem popHost_out (s : State) : (popHost s).out = s.out := rfl
@[simp] theorem popHost_imageBase (s : State) : (popHost s).imageBase = s.imageBase := rfl
@[simp] theorem popHost_imageExtent (s : State) : (popHost s).imageExtent = s.imageExtent := rfl
@[simp] theorem popHost_mem (s : State) : (popHost s).mem = s.mem := rfl
@[simp] theorem popHost_host (s : State) : (popHost s).host = s.host.tail := rfl
@[simp] theorem popHost_ins (s : State) : (popHost s).ins = s.ins := rfl
@[simp] theorem popHost_nows (s : State) : (popHost s).nows = s.nows := rfl
@[simp] theorem popHost_inDraws (s : State) : (popHost s).inDraws = s.inDraws := rfl
@[simp] theorem popHost_nowDraws (s : State) : (popHost s).nowDraws = s.nowDraws := rfl
@[simp] theorem popHost_lastNow (s : State) : (popHost s).lastNow = s.lastNow := rfl
@[simp] theorem popHost_trace (s : State) : (popHost s).trace = s.trace := rfl

@[simp] theorem dropIn_phase (s : State) : (dropIn s).phase = s.phase := by unfold dropIn; split <;> simp_all
@[simp] theorem dropIn_bitcnt (s : State) : (dropIn s).bitcnt = s.bitcnt := by unfold dropIn; split <;> simp_all
@[simp] theorem dropIn_half (s : State) : (dropIn s).half = s.half := by unfold dropIn; split <;> simp_all
@[simp] theorem dropIn_len (s : State) : (dropIn s).len = s.len := by unfold dropIn; split <;> simp_all
@[simp] theorem dropIn_idx (s : State) : (dropIn s).idx = s.idx := by unfold dropIn; split <;> simp_all
@[simp] theorem dropIn_sh (s : State) : (dropIn s).sh = s.sh := by unfold dropIn; split <;> simp_all
@[simp] theorem dropIn_t0 (s : State) : (dropIn s).t0 = s.t0 := by unfold dropIn; split <;> simp_all
@[simp] theorem dropIn_result (s : State) : (dropIn s).result = s.result := by unfold dropIn; split <;> simp_all
@[simp] theorem dropIn_oe (s : State) : (dropIn s).oe = s.oe := by unfold dropIn; split <;> simp_all
@[simp] theorem dropIn_out (s : State) : (dropIn s).out = s.out := by unfold dropIn; split <;> simp_all
@[simp] theorem dropIn_imageBase (s : State) : (dropIn s).imageBase = s.imageBase := by unfold dropIn; split <;> simp_all
@[simp] theorem dropIn_imageExtent (s : State) : (dropIn s).imageExtent = s.imageExtent := by unfold dropIn; split <;> simp_all
@[simp] theorem dropIn_mem (s : State) : (dropIn s).mem = s.mem := by unfold dropIn; split <;> simp_all
@[simp] theorem dropIn_host (s : State) : (dropIn s).host = s.host := by unfold dropIn; split <;> simp_all
@[simp] theorem dropIn_ins (s : State) : (dropIn s).ins = s.ins.tail := by unfold dropIn; split <;> simp_all
@[simp] theorem dropIn_nows (s : State) : (dropIn s).nows = s.nows := by unfold dropIn; split <;> simp_all
@[simp] theorem dropIn_inDraws (s : State) : (dropIn s).inDraws = if s.ins.isEmpty then s.inDraws + 1 else s.inDraws := by unfold dropIn; split <;> simp_all
@[simp] theorem dropIn_nowDraws (s : State) : (dropIn s).nowDraws = s.nowDraws := by unfold dropIn; split <;> simp_all
@[simp] theorem dropIn_lastNow (s : State) : (dropIn s).lastNow = s.lastNow := by unfold dropIn; split <;> simp_all
@[simp] theorem dropIn_trace (s : State) : (dropIn s).trace = s.trace := by unfold dropIn; split <;> simp_all

@[simp] theorem takeIn_phase (s : State) : (takeIn s).phase = s.phase := by simp [takeIn]
@[simp] theorem takeIn_bitcnt (s : State) : (takeIn s).bitcnt = s.bitcnt := by simp [takeIn]
@[simp] theorem takeIn_half (s : State) : (takeIn s).half = s.half := by simp [takeIn]
@[simp] theorem takeIn_len (s : State) : (takeIn s).len = s.len := by simp [takeIn]
@[simp] theorem takeIn_idx (s : State) : (takeIn s).idx = s.idx := by simp [takeIn]
@[simp] theorem takeIn_sh (s : State) : (takeIn s).sh = s.sh := by simp [takeIn]
@[simp] theorem takeIn_t0 (s : State) : (takeIn s).t0 = s.t0 := by simp [takeIn]
@[simp] theorem takeIn_result (s : State) : (takeIn s).result = s.result := by simp [takeIn]
@[simp] theorem takeIn_oe (s : State) : (takeIn s).oe = s.oe := by simp [takeIn]
@[simp] theorem takeIn_out (s : State) : (takeIn s).out = s.out := by simp [takeIn]
@[simp] theorem takeIn_imageBase (s : State) : (takeIn s).imageBase = s.imageBase := by simp [takeIn]
@[simp] theorem takeIn_imageExtent (s : State) : (takeIn s).imageExtent = s.imageExtent := by simp [takeIn]
@[simp] theorem takeIn_mem (s : State) : (takeIn s).mem = s.mem := by simp [takeIn]
@[simp] theorem takeIn_host (s : State) : (takeIn s).host = s.host := by simp [takeIn]
@[simp] theorem takeIn_ins (s : State) : (takeIn s).ins = s.ins.tail := by simp [takeIn]
@[simp] theorem takeIn_nows (s : State) : (takeIn s).nows = s.nows := by simp [takeIn]
@[simp] theorem takeIn_inDraws (s : State) : (takeIn s).inDraws = if s.ins.isEmpty then s.inDraws + 1 else s.inDraws := by simp [takeIn]
@[simp] theorem takeIn_nowDraws (s : State) : (takeIn s).nowDraws = s.nowDraws := by simp [takeIn]
@[simp] theorem takeIn_lastNow (s : State) : (takeIn s).lastNow = s.lastNow := by simp [takeIn]
@[simp] theorem takeIn_trace (s : State) : (takeIn s).trace = s.trace ++ [.inp (inAnswer s)] := by simp [takeIn]

@[simp] theorem dropNow_phase (s : State) : (dropNow s).phase = s.phase := by unfold dropNow; split <;> simp_all
@[simp] theorem dropNow_bitcnt (s : State) : (dropNow s).bitcnt = s.bitcnt := by unfold dropNow; split <;> simp_all
@[simp] theorem dropNow_half (s : State) : (dropNow s).half = s.half := by unfold dropNow; split <;> simp_all
@[simp] theorem dropNow_len (s : State) : (dropNow s).len = s.len := by unfold dropNow; split <;> simp_all
@[simp] theorem dropNow_idx (s : State) : (dropNow s).idx = s.idx := by unfold dropNow; split <;> simp_all
@[simp] theorem dropNow_sh (s : State) : (dropNow s).sh = s.sh := by unfold dropNow; split <;> simp_all
@[simp] theorem dropNow_t0 (s : State) : (dropNow s).t0 = s.t0 := by unfold dropNow; split <;> simp_all
@[simp] theorem dropNow_result (s : State) : (dropNow s).result = s.result := by unfold dropNow; split <;> simp_all
@[simp] theorem dropNow_oe (s : State) : (dropNow s).oe = s.oe := by unfold dropNow; split <;> simp_all
@[simp] theorem dropNow_out (s : State) : (dropNow s).out = s.out := by unfold dropNow; split <;> simp_all
@[simp] theorem dropNow_imageBase (s : State) : (dropNow s).imageBase = s.imageBase := by unfold dropNow; split <;> simp_all
@[simp] theorem dropNow_imageExtent (s : State) : (dropNow s).imageExtent = s.imageExtent := by unfold dropNow; split <;> simp_all
@[simp] theorem dropNow_mem (s : State) : (dropNow s).mem = s.mem := by unfold dropNow; split <;> simp_all
@[simp] theorem dropNow_host (s : State) : (dropNow s).host = s.host := by unfold dropNow; split <;> simp_all
@[simp] theorem dropNow_ins (s : State) : (dropNow s).ins = s.ins := by unfold dropNow; split <;> simp_all
@[simp] theorem dropNow_nows (s : State) : (dropNow s).nows = s.nows.tail := by unfold dropNow; split <;> simp_all
@[simp] theorem dropNow_inDraws (s : State) : (dropNow s).inDraws = s.inDraws := by unfold dropNow; split <;> simp_all
@[simp] theorem dropNow_nowDraws (s : State) : (dropNow s).nowDraws = if s.nows.isEmpty then s.nowDraws + 1 else s.nowDraws := by unfold dropNow; split <;> simp_all
@[simp] theorem dropNow_lastNow (s : State) : (dropNow s).lastNow = some (nowAnswer s) := by unfold dropNow; split <;> simp_all
@[simp] theorem dropNow_trace (s : State) : (dropNow s).trace = s.trace := by unfold dropNow; split <;> simp_all

@[simp] theorem takeNow_phase (s : State) : (takeNow s).phase = s.phase := by simp [takeNow]
@[simp] theorem takeNow_bitcnt (s : State) : (takeNow s).bitcnt = s.bitcnt := by simp [takeNow]
@[simp] theorem takeNow_half (s : State) : (takeNow s).half = s.half := by simp [takeNow]
@[simp] theorem takeNow_len (s : State) : (takeNow s).len = s.len := by simp [takeNow]
@[simp] theorem takeNow_idx (s : State) : (takeNow s).idx = s.idx := by simp [takeNow]
@[simp] theorem takeNow_sh (s : State) : (takeNow s).sh = s.sh := by simp [takeNow]
@[simp] theorem takeNow_t0 (s : State) : (takeNow s).t0 = s.t0 := by simp [takeNow]
@[simp] theorem takeNow_result (s : State) : (takeNow s).result = s.result := by simp [takeNow]
@[simp] theorem takeNow_oe (s : State) : (takeNow s).oe = s.oe := by simp [takeNow]
@[simp] theorem takeNow_out (s : State) : (takeNow s).out = s.out := by simp [takeNow]
@[simp] theorem takeNow_imageBase (s : State) : (takeNow s).imageBase = s.imageBase := by simp [takeNow]
@[simp] theorem takeNow_imageExtent (s : State) : (takeNow s).imageExtent = s.imageExtent := by simp [takeNow]
@[simp] theorem takeNow_mem (s : State) : (takeNow s).mem = s.mem := by simp [takeNow]
@[simp] theorem takeNow_host (s : State) : (takeNow s).host = s.host := by simp [takeNow]
@[simp] theorem takeNow_ins (s : State) : (takeNow s).ins = s.ins := by simp [takeNow]
@[simp] theorem takeNow_nows (s : State) : (takeNow s).nows = s.nows.tail := by simp [takeNow]
@[simp] theorem takeNow_inDraws (s : State) : (takeNow s).inDraws = s.inDraws := by simp [takeNow]
@[simp] theorem takeNow_nowDraws (s : State) : (takeNow s).nowDraws = if s.nows.isEmpty then s.nowDraws + 1 else s.nowDraws := by simp [takeNow]
@[simp] theorem takeNow_lastNow (s : State) : (takeNow s).lastNow = some (nowAnswer s) := by simp [takeNow]
@[simp] theorem takeNow_trace (s : State) : (takeNow s).trace = s.trace ++ [.now (nowAnswer s)] := by simp [takeNow]

end Sys2Proof.Machine
end

