-- ==== Sys2Proof/Laws/Ops.lean ====
section
/-!
SUPPORT. What each shared operation can do, said once: callers cite these instead of unfolding the operation.
-/

namespace Sys2Proof.Machine

theorem inAnswer_of_cons {s : State} {v : PinWord} {vs : List PinWord} (h : s.ins = v :: vs) : inAnswer s = v := by
  simp [inAnswer, h]

theorem inAnswer_of_nil {s : State} (h : s.ins = []) : inAnswer s = Config.freeIn s.inDraws := by
  simp [inAnswer, h]

theorem nowAnswer_of_cons {s : State} {t : Millis} {ts : List Millis} (h : s.nows = t :: ts) : nowAnswer s = t := by
  simp [nowAnswer, h]

/-- `In()` as one record update. -/
theorem takeIn_eq (s : State) : takeIn s =
    { s with
      ins := s.ins.tail, inDraws := if s.ins.isEmpty then s.inDraws + 1 else s.inDraws
      trace := s.trace ++ [.inp (inAnswer s)] } := by
  cases h : s.ins <;> simp [takeIn, dropIn, emit, h]

/-- `Now()` as one record update. -/
theorem takeNow_eq (s : State) : takeNow s =
    { s with
      nows := s.nows.tail, nowDraws := if s.nows.isEmpty then s.nowDraws + 1 else s.nowDraws
      lastNow := some (nowAnswer s), trace := s.trace ++ [.now (nowAnswer s)] } := by
  cases h : s.nows <;> simp [takeNow, dropNow, emit, h]

/-- A count within the contract is not below the latest one of the load. -/
theorem le_nowAnswer {s : State} (hc : nowInContract s = true) {l : Millis} (hl : s.lastNow = some l) :
    l.toNat ≤ (nowAnswer s).toNat := by
  unfold nowInContract at hc
  unfold nowAnswer
  cases hn : s.nows with
  | cons t ts =>
    simp only [hn, hl, decide_eq_true_eq] at hc
    exact hc
  | nil =>
    simp only [hl]
    split
    · exact Nat.le_refl _
    · rename_i h; exact Nat.le_of_not_lt h

/-- `withNow` continues with the answer, or refuses it. -/
theorem withNow_cases (s : State) (k : Millis → State → Result) :
    (nowInContract s = true ∧ withNow s k = k (nowAnswer s) (takeNow s)) ∨
    (nowInContract s = false ∧ withNow s k = .refused (.timeWentBackwards (nowAnswer s))) := by
  unfold withNow; cases h : nowInContract s <;> simp

/-- `withRead` continues with the bytes, or refuses the read. -/
theorem withRead_cases (s : State) (need offset n : Nat) (k : List Byte → State → Result) :
    (need ≤ s.imageExtent ∧ withRead s need offset n k
        = k (imageBytes s offset n) (emit (.rd offset (imageBytes s offset n)) s)) ∨
    (s.imageExtent < need ∧ withRead s need offset n k = .refused (.imageBeyondExtent offset)) := by
  unfold withRead
  by_cases h : need ≤ s.imageExtent
  · exact .inl ⟨h, by simp [h]⟩
  · exact .inr ⟨by omega, by simp [h]⟩

/-- Where `withNow` answers a next state, its continuation does. -/
theorem withNow_next {s t : State} {k : Millis → State → Result} (h : withNow s k = .next t) :
    nowInContract s = true ∧ k (nowAnswer s) (takeNow s) = .next t := by
  rcases withNow_cases s k with ⟨a, b⟩ | ⟨a, b⟩ <;> rw [b] at h
  · exact ⟨a, h⟩
  · simp at h

/-- Where `withRead` answers a next state, its continuation does. -/
theorem withRead_next {s t : State} {need offset n : Nat} {k : List Byte → State → Result}
    (h : withRead s need offset n k = .next t) :
    need ≤ s.imageExtent ∧
      k (imageBytes s offset n) (emit (.rd offset (imageBytes s offset n)) s) = .next t := by
  rcases withRead_cases s need offset n k with ⟨a, b⟩ | ⟨a, b⟩ <;> rw [b] at h
  · exact ⟨a, h⟩
  · simp at h

/-- CCLK is bit 0 of a pin word (30_encoding R94). -/
theorem cclk_eq (v : PinWord) : lineHigh Config.CCLK_BIT v = v.getLsbD 0 := by revert v; decide

/-- DIN is bit 1 of a pin word (30_encoding R94). -/
theorem din_eq (v : PinWord) : lineHigh Config.DIN_BIT v = v.getLsbD 1 := by revert v; decide

/-- PROGRAM_B is bit 4 of a pin word (30_encoding R94). -/
theorem programB_eq (v : PinWord) : lineHigh Config.PROGRAM_B_BIT v = v.getLsbD 4 := by revert v; decide

/-- A read answers as many bytes as it asks for. -/
@[simp] theorem imageBytes_length (s : State) (offset n : Nat) : (imageBytes s offset n).length = n := by
  unfold imageBytes
  generalize s.imageBase + offset = x
  induction n generalizing x with
  | zero => rfl
  | succ n ih => simp [Memory.readBytes, ih]

/-- W_INIT's and S_CHECK's test is bit 3 (30_encoding R97). -/
theorem initReady_eq (v : PinWord) : initReady v = v.getLsbD 3 := by revert v; decide

/-- P_SAMPLE's test is bit 2 (30_encoding R97). -/
theorem doneSeen_eq (v : PinWord) : doneSeen v = v.getLsbD 2 := by revert v; decide

/-- The last bit sent of a byte is its bit 0 (30_encoding R98). -/
theorem dataBit_last (b : Byte) : dataBit b 7#3 = b.getLsbD 0 := rfl

/-- Everything a shifting step that answers a next state can do (43_bit_shifter R183). -/
theorem shiftStep_cases {next : PhaseCode} {count : Bool} {s t : State} (h : shiftStep next count s = .next t) :
    ∃ b, s.sh = some b ∧
      ((s.half = false ∧ t = { writeOut (pinSetupWord (dataBit b s.bitcnt)) s with half := true }) ∨
       (s.half = true ∧ s.bitcnt ≠ 7#3 ∧
          t = { writeOut (pinClockWord (dataBit b s.bitcnt)) s with half := false, bitcnt := s.bitcnt + 1#3 }) ∨
       (s.half = true ∧ s.bitcnt = 7#3 ∧ count = false ∧
          t = { writeOut (pinClockWord (dataBit b s.bitcnt)) s with half := false, bitcnt := 0#3, phase := next }) ∨
       (s.half = true ∧ s.bitcnt = 7#3 ∧ count = true ∧ ∃ i, s.idx = some i ∧
          t = { writeOut (pinClockWord (dataBit b s.bitcnt)) s with
                half := false, bitcnt := 0#3, idx := some (i + 1#32), phase := next })) := by
  unfold shiftStep at h
  cases hsh : s.sh with
  | none => simp [hsh] at h
  | some b =>
    refine ⟨b, rfl, ?_⟩
    simp only [hsh] at h
    cases hh : s.half with
    | false => simp only [hh] at h; injection h with h; exact .inl ⟨rfl, h.symm⟩
    | true =>
      simp only [hh, if_true] at h
      by_cases h7 : s.bitcnt = 7#3
      · simp only [h7, if_true, endByte] at h
        cases count with
        | false =>
          simp only [Bool.false_eq_true, if_false] at h
          injection h with h; exact .inr (.inr (.inl ⟨rfl, h7, rfl, by rw [h7]; exact h.symm⟩))
        | true =>
          cases hi : s.idx with
          | none => simp [hi] at h
          | some i =>
            simp only [if_true, writeOut_idx, hi] at h
            injection h with h
            exact .inr (.inr (.inr ⟨rfl, h7, rfl, i, rfl, by rw [h7]; exact h.symm⟩))
      · simp only [h7, if_false] at h
        injection h with h; exact .inr (.inl ⟨rfl, h7, h.symm⟩)

/-- A shifting step stops only for want of a byte in SH, or of a count in IDX at the end of a payload byte. -/
theorem shiftStep_next_of {next : PhaseCode} {count : Bool} {s : State} {b : Byte} (hb : s.sh = some b)
    (hi : count = true → s.idx.isSome = true) : ∃ t, shiftStep next count s = .next t := by
  unfold shiftStep
  simp only [hb]
  cases s.half <;> simp
  split
  · unfold endByte
    cases count with
    | false => simp
    | true =>
      obtain ⟨i, h⟩ := Option.isSome_iff_exists.mp (hi rfl)
      simp [h]
  · simp

/-- What no shifting step changes: everything but PHASE, the counters, IDX, OUT and the trace. -/
theorem shiftStep_frame {next : PhaseCode} {count : Bool} {s t : State} (h : shiftStep next count s = .next t) :
    t.len = s.len ∧ t.sh = s.sh ∧ t.t0 = s.t0 ∧ t.result = s.result ∧ t.oe = s.oe ∧ t.ins = s.ins ∧
    t.inDraws = s.inDraws ∧ t.nows = s.nows ∧ t.nowDraws = s.nowDraws ∧ t.lastNow = s.lastNow ∧ t.mem = s.mem ∧
    t.imageBase = s.imageBase ∧ t.imageExtent = s.imageExtent ∧ t.host = s.host ∧
    t.trace = s.trace ++ [.out t.out] := by
  obtain ⟨b, hb, h | h | h | h⟩ := shiftStep_cases h
  · obtain ⟨_, rfl⟩ := h; simp
  · obtain ⟨_, _, rfl⟩ := h; simp
  · obtain ⟨_, _, _, rfl⟩ := h; simp
  · obtain ⟨_, _, _, i, _, rfl⟩ := h; simp

end Sys2Proof.Machine
end

