-- ==== Sys2Proof/Laws/PerInstr.lean ====
section
/-!
SUPPORT. The family Shape: a well-formed instruction is encoded by a word that is legal in its format (30_encoding R93,
R95, R96, R99, R102, R104).
-/

namespace Sys2Proof.Laws

theorem setup_legal (d : Bool) : (Machine.outWords.contains (Machine.pinSetupWord d)
    && Machine.lineHigh Config.PROGRAM_B_BIT (Machine.pinSetupWord d)) = true := by cases d <;> decide

theorem clock_legal (d : Bool) : (Machine.outWords.contains (Machine.pinClockWord d)
    && Machine.lineHigh Config.PROGRAM_B_BIT (Machine.pinClockWord d)) = true := by cases d <;> decide

end Sys2Proof.Laws

namespace Sys2Proof.Laws.Shape

/-- The word of a well-formed instruction is legal in its format. -/
def Statement (i : Instr) : Prop := i.wellFormed = true → (encode i).legal = true

theorem idle : Statement .idle := fun _ => by decide
theorem vMagic : Statement .vMagic := fun _ => by decide
theorem vLen : Statement .vLen := fun _ => by decide
theorem dOe : Statement .dOe := fun _ => by decide
theorem rLow : Statement .rLow := fun _ => by decide
theorem rLowWait : Statement .rLowWait := fun _ => by decide
theorem rHigh : Statement .rHigh := fun _ => by decide
theorem rHighWait : Statement .rHighWait := fun _ => by decide
theorem wInit : Statement .wInit := fun _ => by decide
theorem sFetch : Statement .sFetch := fun _ => by decide
theorem sShift : Statement .sShift := fun _ => by decide
theorem sCheck : Statement .sCheck := fun _ => by decide
theorem pAnchor : Statement .pAnchor := fun _ => by decide
theorem pSample : Statement .pSample := fun _ => by decide
theorem pFill : Statement .pFill := fun _ => by decide
theorem pDeadline : Statement .pDeadline := fun _ => by decide
theorem fComp : Statement .fComp := fun _ => by decide
theorem fIdle : Statement .fIdle := fun _ => by decide
theorem xRet : Statement .xRet := fun _ => by decide
theorem shift8 (b : Byte) : Statement (.shift8 b) := fun _ => by
  have hall : (Machine.shift8Words b).all (fun w => Machine.outWords.contains w && Machine.lineHigh Config.PROGRAM_B_BIT w) = true := by
    unfold Machine.shift8Words
    rw [List.all_flatMap, List.all_eq_true]
    intro k _
    simp only [List.all_cons, List.all_nil, setup_legal, clock_legal, Bool.and_self]
  have hlen : (Machine.shift8Words b).length = 16 := rfl
  simp only [encode, Code.legal, hall, hlen, decide_true, Bool.and_self]
theorem imageHeader (l : Word32) : Statement (.imageHeader l) := fun _ => rfl
theorem hdrBadMagic (m l : Word32) : Statement (.hdrBadMagic m l) := fun _ => rfl
theorem hdrTooLarge (l : Word32) : Statement (.hdrTooLarge l) := fun _ => rfl
theorem pinReset : Statement .pinReset := fun _ => by decide
theorem pinIdle : Statement .pinIdle := fun _ => by decide
theorem pinSetup (d : Bool) : Statement (.pinSetup d) := fun _ => setup_legal d
theorem pinClock (d : Bool) : Statement (.pinClock d) := fun _ => clock_legal d
theorem pinOe : Statement .pinOe := fun _ => by decide
theorem inInitReady (v : PinWord) : Statement (.inInitReady v) := fun _ => rfl
theorem inInitNotReady (v : PinWord) : Statement (.inInitNotReady v) := fun _ => rfl
theorem inDone (v : PinWord) : Statement (.inDone v) := fun _ => rfl
theorem inNotDone (v : PinWord) : Statement (.inNotDone v) := fun _ => rfl
theorem resOk : Statement .resOk := fun _ => by decide
theorem resBadMagic : Statement .resBadMagic := fun _ => by decide
theorem resImageTooLarge : Statement .resImageTooLarge := fun _ => by decide
theorem resInitTimeout : Statement .resInitTimeout := fun _ => by decide
theorem resMidStreamAbort : Statement .resMidStreamAbort := fun _ => by decide
theorem resDoneTimeout : Statement .resDoneTimeout := fun _ => by decide
theorem evOe (m : PinWord) : Statement (.evOe m) := fun _ => rfl
theorem evOut (v : PinWord) : Statement (.evOut v) := fun _ => rfl
theorem evIn : Statement .evIn := fun _ => rfl
theorem evNow : Statement .evNow := fun _ => rfl
theorem evWait (us : Word32) : Statement (.evWait us) := fun _ => rfl
theorem evRd (o n : Nat) : Statement (.evRd o n) := fun _ => rfl
theorem evRet (c : Code3) : Statement (.evRet c) := fun _ => rfl
theorem evLoad : Statement .evLoad := fun _ => rfl

end Sys2Proof.Laws.Shape
end

