-- ==== Sys2Proof/Laws/Step.lean ====
section
/-!
SUPPORT. What a step can do, said once (Fetch.stepOnce).
-/

namespace Sys2Proof.Machine

@[simp] theorem afterNext_next (f : State → State) (s : State) : afterNext f (.next s) = .next (f s) := rfl
@[simp] theorem afterNext_fault (f : State → State) (r : Fault) : afterNext f (.fault r) = .fault r := rfl
@[simp] theorem afterNext_refused (f : State → State) (r : Refusal) : afterNext f (.refused r) = .refused r := rfl

/-- Every way a step can go: block reset, a refused LOAD, a stuck PHASE, or the operation of the present PHASE. -/
theorem step_cases (s : State) :
    (s.host.head? = some .blockReset ∧ step s = .next (popHost (blockReset s))) ∨
    (s.host.head? = some .load ∧ busy s = true ∧ step s = .refused .overlappingLoad) ∨
    (Phase.ofCode s.phase = none ∧ step s = .fault (.stuckPhase s.phase)) ∨
    (∃ p : Phase, s.phase = p.code ∧ s.host.head? ≠ some .blockReset ∧
      (s.host.head? = some .load → p = .idle) ∧ step s = afterNext popHost (exec p.instr s)) := by
  have hrun : (Phase.ofCode s.phase = none ∧ runPhase s = .fault (.stuckPhase s.phase)) ∨
      ∃ p : Phase, s.phase = p.code ∧ runPhase s = afterNext popHost (exec p.instr s) := by
    unfold runPhase
    cases h : Phase.ofCode s.phase with
    | none => exact .inl ⟨rfl, rfl⟩
    | some p => exact .inr ⟨p, (Phase.code_of_ofCode h).symm, rfl⟩
  unfold step stepOnce
  cases hh : s.host.head? with
  | none =>
    rcases hrun with h | ⟨p, hp, h⟩
    · exact .inr (.inr (.inl h))
    · exact .inr (.inr (.inr ⟨p, hp, by simp, by simp, h⟩))
  | some e =>
    cases e with
    | blockReset => exact .inl ⟨rfl, rfl⟩
    | load =>
      cases hb : busy s with
      | true => exact .inr (.inl ⟨rfl, rfl, by simp⟩)
      | false =>
        have hid : s.phase = Phase.idle.code := by simpa [busy] using hb
        rcases hrun with h | ⟨p, hp, h⟩
        · rw [hid] at h; simp at h
        · exact .inr (.inr (.inr ⟨p, hp, by simp, fun _ => Phase.code_inj (hp ▸ hid), by simpa using h⟩))
    | quiet =>
      rcases hrun with h | ⟨p, hp, h⟩
      · exact .inr (.inr (.inl h))
      · exact .inr (.inr (.inr ⟨p, hp, by simp, by simp, h⟩))

end Sys2Proof.Machine
end

