-- ==== Sys2Proof/Laws/Run.lean ====
section
/-!
SUPPORT. Runs of several steps: the unfolding equations of Safety.run, their composition, and the step of a state whose
host does nothing.
-/

namespace Sys2Proof.Safety

open Machine

/-- In a phase of the table, `inPhase` is membership of that phase in the list. -/
theorem inPhase_of_phase {s : State} {p : Phase} (h : s.phase = p.code) (ps : List Phase) :
    inPhase s ps = decide (p ∈ ps) := by
  unfold inPhase
  rw [h]
  induction ps with
  | nil => rfl
  | cons a l ih =>
    rw [List.any_cons, ih]
    by_cases hh : p = a <;> simp [hh]
    intro h2; exact absurd h2.symm hh

@[simp] theorem run_zero (s : State) : run 0 s = .next s := rfl

/-- One step of a run, for any machine. -/
theorem core_run_succ (M : Host.Core) (k : Nat) (s : M.State) : M.run (k + 1) s =
    match M.step s with
    | .next t => M.run k t
    | .fault r => .fault r
    | .refused r => .refused r := by
  cases h : M.step s <;> simp [Host.Core.run, h]

theorem run_succ_of_next {s t : State} (k : Nat) (h : step s = .next t) : run (k + 1) s = run k t :=
  (core_run_succ Sys2Proof.core k s).trans (by rw [show Sys2Proof.core.step s = .next t from h]; rfl)

theorem run_succ_of_fault {s : State} {r : Fault} (k : Nat) (h : step s = .fault r) :
    run (k + 1) s = .fault r :=
  (core_run_succ Sys2Proof.core k s).trans (by rw [show Sys2Proof.core.step s = .fault r from h]; rfl)

theorem run_succ_of_refused {s : State} {r : Refusal} (k : Nat) (h : step s = .refused r) :
    run (k + 1) s = .refused r :=
  (core_run_succ Sys2Proof.core k s).trans (by rw [show Sys2Proof.core.step s = .refused r from h]; rfl)

/-- A run that reaches `t` goes on from `t`. -/
theorem run_add {a : Nat} (b : Nat) {s t : State} (h : run a s = .next t) : run (a + b) s = run b t := by
  induction a generalizing s with
  | zero => rw [run_zero] at h; injection h with h; subst h; simp
  | succ n ih =>
    cases hs : step s with
    | next u =>
      rw [run_succ_of_next n hs] at h
      rw [Nat.add_right_comm, run_succ_of_next _ hs]
      exact ih h
    | fault r => rw [run_succ_of_fault n hs] at h; simp at h
    | refused r => rw [run_succ_of_refused n hs] at h; simp at h

/-- With a quiet host, a step is the operation of the present phase. -/
theorem step_of_phase {s t : State} {p : Phase} (hp : s.phase = p.code) (hh : s.host = [])
    (h : exec p.instr s = .next t) : step s = .next (popHost t) := by
  unfold step stepOnce runPhase
  rw [hp]
  simp [hh, h]

/-- One step of a run whose host does nothing. -/
theorem run_of_phase {s t : State} {p : Phase} (k : Nat) (hp : s.phase = p.code) (hh : s.host = [])
    (h : exec p.instr s = .next t) : run (k + 1) s = run k (popHost t) :=
  run_succ_of_next k (step_of_phase hp hh h)

end Sys2Proof.Safety
end

