-- ==== Sys2Proof/Laws/Trace.lean ====
section
/-!
SUPPORT. What reading an item of an event's payload, and a list of them, can answer.
-/

namespace Sys2Proof.Machine

/-- An item is read as the word whose number it is. -/
theorem payloadWord_eq_some {n x : Nat} {b : BitVec n} : payloadWord n x = some b ↔ b.toNat = x := by
  unfold payloadWord
  constructor
  · intro h
    split at h
    · injection h with h; subst h; simp; exact Nat.mod_eq_of_lt ‹_›
    · simp at h
  · intro h; subst h; simp [b.isLt]

/-- A list of items is read as the words whose numbers they are. -/
theorem mapM_payloadWord_eq_some {n : Nat} {xs : List Nat} {bs : List (BitVec n)} :
    xs.mapM (payloadWord n) = some bs ↔ bs.map BitVec.toNat = xs := by
  induction xs generalizing bs with
  | nil => cases bs <;> simp
  | cons x xs ih =>
    rw [List.mapM_cons]
    constructor
    · intro h
      obtain ⟨b, hb, h⟩ := Option.bind_eq_some_iff.mp h
      obtain ⟨cs, hcs, h⟩ := Option.bind_eq_some_iff.mp h
      injection h with h; subst h
      simp [payloadWord_eq_some.mp hb, ih.mp hcs]
    · intro h
      cases bs with
      | nil => simp at h
      | cons b bs =>
        simp only [List.map_cons, List.cons.injEq] at h
        simp [payloadWord_eq_some.mpr h.1, ih.mpr h.2]

end Sys2Proof.Machine
end

