-- ==== Sys2Proof/Tests/Slice0.lean ====
section
/-!
SUPPORT. The model's own tests. Expected values are the spec's: the tables of 30_encoding and the vectors of
95_test_vectors (named by section in each docstring). The witness theorems show, for each statement with hypotheses,
a concrete state and operands that meet them.
-/

namespace Sys2Proof.Tests

open Machine Safety

/-- A state in a phase, otherwise as after reset. -/
def inState (p : Phase) : State := { State.reset with phase := p.code }

/-- The state of a load with a two-byte payload `B0 01` (95_test_vectors S3) in a phase. -/
def loading (p : Phase) : State :=
  { State.reset with
    phase := p.code, len := some 2#32, idx := some 0#32, sh := some 0xB0#8, t0 := some 500#64, oe := 0x13#5, out := 0x10#5
    mem := Memory.writeBytes [] 0 [0x53#8, 0x41#8, 0x52#8, 0x31#8, 0x00#8, 0x00#8, 0x00#8, 0x02#8, 0xB0#8, 0x01#8] }

/-- A loading state whose header bytes are these. -/
def withHeader (p : Phase) (bytes : List Byte) : State :=
  { State.reset with phase := p.code, mem := Memory.writeBytes [] 0 bytes }

/-- Whether an outcome is a next state with a property. -/
def nextIs (r : Result) (f : State → Bool) : Bool :=
  match r with
  | .next t => f t
  | .fault _ | .refused _ => false

/-- Whether an outcome is this fault. -/
def faultIs (r : Result) (x : Fault) : Bool :=
  match r with
  | .fault y => y == x
  | .next _ | .refused _ => false

/-- Whether an outcome is this refusal. -/
def refusedIs (r : Result) (x : Refusal) : Bool :=
  match r with
  | .refused y => y == x
  | .next _ | .fault _ => false

/-! ## Well-formedness: an ill-formed term for each check -/

theorem test_wf_header : Instr.wellFormed (.imageHeader 0x220001#32) = false ∧
    Instr.wellFormed (.imageHeader 0x220000#32) = true := by decide

theorem test_wf_bad_magic : Instr.wellFormed (.hdrBadMagic 0x53415231#32 2#32) = false ∧
    Instr.wellFormed (.hdrBadMagic 0x53415230#32 2#32) = true := by decide

theorem test_wf_too_large : Instr.wellFormed (.hdrTooLarge 0x220000#32) = false ∧
    Instr.wellFormed (.hdrTooLarge 0x220001#32) = true := by decide

theorem test_wf_in_words : Instr.wellFormed (.inInitReady 0x17#5) = false ∧
    Instr.wellFormed (.inInitNotReady 0x08#5) = false ∧ Instr.wellFormed (.inDone 0x1B#5) = false ∧
    Instr.wellFormed (.inNotDone 0x04#5) = false := by decide

theorem test_wf_events : Instr.wellFormed (.evOe 0x12#5) = false ∧ Instr.wellFormed (.evOut 0x14#5) = false ∧
    Instr.wellFormed (.evRd 0 1) = false ∧ Instr.wellFormed (.evRd 8 4) = false ∧
    Instr.wellFormed (.evRd 0x220008 1) = false ∧ Instr.wellFormed (.evRd 0x220007 1) = true ∧
    Instr.wellFormed (.evRet 6#3) = false := by decide

/-! ## Decoding: every row, by a word written out from 30_encoding -/

theorem test_decode_phases_low :
    decode (.phase5 0b00000#5) = .ok .idle ∧ decode (.phase5 0b00001#5) = .ok .vMagic ∧
    decode (.phase5 0b00010#5) = .ok .vLen ∧ decode (.phase5 0b00011#5) = .ok .dOe ∧
    decode (.phase5 0b00100#5) = .ok .rLow ∧ decode (.phase5 0b00101#5) = .ok .rLowWait ∧
    decode (.phase5 0b00110#5) = .ok .rHigh ∧ decode (.phase5 0b00111#5) = .ok .rHighWait ∧
    decode (.phase5 0b01000#5) = .ok .wInit := by decide

theorem test_decode_phases_high :
    decode (.phase5 0b01001#5) = .ok .sFetch ∧ decode (.phase5 0b01010#5) = .ok .sShift ∧
    decode (.phase5 0b01011#5) = .ok .sCheck ∧ decode (.phase5 0b01100#5) = .ok .pAnchor ∧
    decode (.phase5 0b01101#5) = .ok .pSample ∧ decode (.phase5 0b01110#5) = .ok .pFill ∧
    decode (.phase5 0b01111#5) = .ok .pDeadline ∧ decode (.phase5 0b10000#5) = .ok .fComp ∧
    decode (.phase5 0b10001#5) = .ok .fIdle ∧ decode (.phase5 0b10010#5) = .ok .xRet ∧
    decode (.phase5 0b10011#5) = .error (.phaseReserved 0b10011#5) := by decide

/-- The sixteen words of `0x53` (95_test_vectors 2.4). -/
theorem test_decode_shift8 :
    decode (.outWords [0x10#5, 0x11#5, 0x12#5, 0x13#5, 0x10#5, 0x11#5, 0x12#5, 0x13#5,
      0x10#5, 0x11#5, 0x10#5, 0x11#5, 0x12#5, 0x13#5, 0x12#5, 0x13#5]) = .ok (.shift8 0x53#8) := by decide

/-- The headers of 95_test_vectors 2.2. -/
theorem test_decode_headers :
    decodeBytes .hdr64 [0x53#8, 0x41#8, 0x52#8, 0x31#8, 0x00#8, 0x22#8, 0x00#8, 0x00#8]
      = .ok (.imageHeader 0x220000#32) ∧
    decodeBytes .hdr64 [0x53#8, 0x41#8, 0x52#8, 0x31#8, 0x00#8, 0x3F#8, 0xFF#8, 0xFF#8]
      = .ok (.hdrTooLarge 0x3FFFFF#32) ∧
    decodeBytes .hdr64 [0x31#8, 0x52#8, 0x41#8, 0x53#8, 0x00#8, 0x00#8, 0x00#8, 0x02#8]
      = .ok (.hdrBadMagic 0x31524153#32 2#32) := by decide

theorem test_decode_out_words :
    decode (.outLevel 0b00000#5) = .ok .pinReset ∧ decode (.outLevel 0b10000#5) = .ok .pinIdle ∧
    decode (.outBit 0b10000#5) = .ok (.pinSetup false) ∧ decode (.outBit 0b10010#5) = .ok (.pinSetup true) ∧
    decode (.outBit 0b10001#5) = .ok (.pinClock false) ∧ decode (.outBit 0b10011#5) = .ok (.pinClock true) ∧
    decode (.oe 0b10011#5) = .ok .pinOe := by decide

/-- The IN words of 95_test_vectors 2.1. -/
theorem test_decode_in_words :
    decode (.inInit 0b01000#5) = .ok (.inInitReady 0b01000#5) ∧
    decode (.inInit 0b00100#5) = .ok (.inInitNotReady 0b00100#5) ∧
    decode (.inDone 0b00100#5) = .ok (.inDone 0b00100#5) ∧
    decode (.inDone 0b10011#5) = .ok (.inNotDone 0b10011#5) := by decide

theorem test_decode_results :
    decode (.res3 0b000#3) = .ok .resOk ∧ decode (.res3 0b001#3) = .ok .resBadMagic ∧
    decode (.res3 0b010#3) = .ok .resImageTooLarge ∧ decode (.res3 0b011#3) = .ok .resInitTimeout ∧
    decode (.res3 0b100#3) = .ok .resMidStreamAbort ∧ decode (.res3 0b101#3) = .ok .resDoneTimeout ∧
    decode (.res3 0b110#3) = .error (.resultReserved 0b110#3) := by decide

theorem test_decode_events :
    decode (.evt3 0b000#3 [0x13]) = .ok (.evOe 0x13#5) ∧ decode (.evt3 0b001#3 [0x12]) = .ok (.evOut 0x12#5) ∧
    decode (.evt3 0b010#3 []) = .ok .evIn ∧ decode (.evt3 0b011#3 []) = .ok .evNow ∧
    decode (.evt3 0b100#3 [5000]) = .ok (.evWait 5000#32) ∧ decode (.evt3 0b101#3 [4, 4]) = .ok (.evRd 4 4) ∧
    decode (.evt3 0b110#3 [5]) = .ok (.evRet 5#3) ∧ decode (.evt3 0b111#3 []) = .ok .evLoad := by decide

/-- The events `RD 8,1->B0`, `IN->08` and `NOW->1000` of 95_test_vectors P4; a missing byte and an item too wide. -/
theorem test_trace_events :
    eventTag (.rd 8 [0xB0#8]) = 0b101#3 ∧ eventPayload (.rd 8 [0xB0#8]) = [8, 1, 0xB0] ∧
    eventOfCode 0b101#3 [8, 1, 0xB0] = some (.rd 8 [0xB0#8]) ∧ eventOfCode 0b010#3 [0x08] = some (.inp 0x08#5) ∧
    eventOfCode 0b011#3 [1000] = some (.now 1000#64) ∧ eventOfCode 0b111#3 [] = some .load ∧
    eventOfCode 0b101#3 [8, 1] = none ∧ eventOfCode 0b010#3 [0x20] = none ∧ eventOfCode 0b010#3 [] = none := by decide

theorem test_decode_table_words :
    decodeTableWord 8 0x0A = some .sShift ∧ decodeTableWord 8 0x13 = none ∧ decodeTableWord 8 0x20 = none ∧
    decodeTableWord 64 0x5341523100000002 = some (.imageHeader 2#32) ∧
    decodeTableWord 128 0x11101110111011101312131211101312 = some (.shift8 0xB0#8) := by decide

/-! ## One step of each instruction, on the vectors of 95_test_vectors -/

theorem test_idle_load : nextIs (step { inState .idle with host := [.load] }) (fun t =>
    t.phase == 0x01#5 && t.idx == some 0#32 && t.trace == [.load]) = true := by decide

/-- 2.2: the last byte of the magic off by one. -/
theorem test_v_magic : nextIs (exec .vMagic (loading .vMagic)) (fun t => t.phase == 0x02#5) = true ∧
    nextIs (exec .vMagic (withHeader .vMagic [0x53#8, 0x41#8, 0x52#8, 0x30#8])) (fun t =>
      t.phase == 0x12#5 && t.result == some 1#3) = true := by decide

/-- 2.2: a length of 2 written little-endian. -/
theorem test_v_len : nextIs (exec .vLen (loading .vLen)) (fun t => t.phase == 0x03#5 && t.len == some 2#32) = true ∧
    nextIs (exec .vLen (withHeader .vLen [0x53#8, 0x41#8, 0x52#8, 0x31#8, 0x02#8])) (fun t =>
      t.phase == 0x12#5 && t.result == some 2#3 && t.len == none) = true := by decide

/-- 2.3, the first five events. -/
theorem test_reset_sequence :
    nextIs (exec .dOe (inState .dOe)) (fun t => t.oe == 0x13#5 && t.out == 0x00#5 && t.trace == [.oe 0x13#5]) = true ∧
    nextIs (exec .rLow (loading .rLow)) (fun t => t.out == 0x00#5 && t.phase == 0x05#5) = true ∧
    nextIs (exec .rLowWait (inState .rLowWait)) (fun t => t.trace == [.wait 1#32] && t.phase == 0x06#5) = true ∧
    nextIs (exec .rHigh (inState .rHigh)) (fun t => t.out == 0x10#5 && t.phase == 0x07#5) = true ∧
    nextIs (exec .rHighWait (inState .rHighWait)) (fun t =>
      t.trace == [.wait 5000#32] && t.phase == 0x08#5) = true := by decide

/-- 2.3: DONE ignored; every bit but INIT_B set. -/
theorem test_w_init : nextIs (exec .wInit { inState .wInit with ins := [0x0C#5] }) (fun t => t.phase == 0x09#5) = true ∧
    nextIs (exec .wInit { inState .wInit with ins := [0x17#5] }) (fun t => t.result == some 3#3) = true := by decide

/-- 2.4: the first payload byte, and the empty payload. -/
theorem test_s_fetch :
    nextIs (exec .sFetch { loading .sFetch with sh := none }) (fun t =>
      t.phase == 0x0A#5 && t.sh == some 0xB0#8 && t.trace == [.rd 8 [0xB0#8]]) = true ∧
    nextIs (exec .sFetch { loading .sFetch with len := some 0#32 }) (fun t =>
      t.phase == 0x0C#5 && t.trace == []) = true := by decide

/-- 2.4: the second and the last single step. -/
theorem test_s_shift :
    nextIs (exec .sShift { loading .sShift with half := true }) (fun t =>
      t.out == 0x13#5 && t.bitcnt == 1#3 && t.half == false && t.phase == 0x0A#5) = true ∧
    nextIs (exec .sShift { loading .sShift with half := true, bitcnt := 7#3 }) (fun t =>
      t.out == 0x11#5 && t.bitcnt == 0#3 && t.half == false && t.idx == some 1#32 && t.phase == 0x0B#5) = true := by
  decide

theorem test_s_check :
    nextIs (exec .sCheck { loading .sCheck with ins := [0x0C#5] }) (fun t => t.phase == 0x09#5) = true ∧
    nextIs (exec .sCheck { loading .sCheck with ins := [0x17#5] }) (fun t =>
      t.phase == 0x12#5 && t.result == some 4#3 && t.out == 0x10#5) = true := by decide

theorem test_p_anchor : nextIs (exec .pAnchor { inState .pAnchor with nows := [500#64] }) (fun t =>
    t.t0 == some 500#64 && t.phase == 0x0D#5) = true := by decide

/-- 2.5: INIT_B ignored. -/
theorem test_p_sample :
    nextIs (exec .pSample { inState .pSample with ins := [0x08#5] }) (fun t =>
      t.phase == 0x0E#5 && t.sh == some 0xFF#8) = true ∧
    nextIs (exec .pSample { inState .pSample with ins := [0x04#5] }) (fun t =>
      t.phase == 0x10#5 && t.sh == some 0xFF#8) = true := by decide

/-- 2.4: the last step of a filler. -/
theorem test_fillers :
    nextIs (exec .pFill { loading .pFill with sh := some 0xFF#8, half := true, bitcnt := 7#3 }) (fun t =>
      t.out == 0x13#5 && t.idx == some 0#32 && t.phase == 0x0F#5) = true ∧
    nextIs (exec .fComp { loading .fComp with sh := some 0xFF#8, half := true, bitcnt := 7#3 }) (fun t =>
      t.out == 0x13#5 && t.idx == some 0#32 && t.phase == 0x11#5) = true := by decide

/-- 2.5, T0 = 500: 599 continues, 600 fails. -/
theorem test_p_deadline :
    nextIs (exec .pDeadline { loading .pDeadline with nows := [599#64] }) (fun t => t.phase == 0x0D#5) = true ∧
    nextIs (exec .pDeadline { loading .pDeadline with nows := [600#64] }) (fun t =>
      t.phase == 0x12#5 && t.result == some 5#3) = true := by decide

/-- 2.5: 499 after 500 is outside the contract. -/
theorem test_p_deadline_backwards :
    refusedIs (exec .pDeadline { loading .pDeadline with nows := [499#64], lastNow := some 500#64 })
      (.timeWentBackwards 499#64) = true := by decide

theorem test_finish :
    nextIs (exec .fIdle { inState .fIdle with out := 0x13#5 }) (fun t =>
      t.out == 0x10#5 && t.result == some 0#3 && t.phase == 0x12#5) = true ∧
    nextIs (exec .xRet { inState .xRet with result := some 5#3, out := 0x13#5 }) (fun t =>
      t.phase == 0x00#5 && t.out == 0x13#5 && t.trace == [.ret 5#3]) = true := by decide

/-- 2.4: the words of `0x7E`, and the last word left on the lines. -/
theorem test_shift8 : nextIs (exec (.shift8 0x7E#8) (loading .sShift)) (fun t =>
    outsOf t.trace == [0x10#5, 0x11#5, 0x12#5, 0x13#5, 0x12#5, 0x13#5, 0x12#5, 0x13#5,
      0x12#5, 0x13#5, 0x12#5, 0x13#5, 0x12#5, 0x13#5, 0x10#5, 0x11#5]
    && t.out == 0x11#5 && t.idx == some 1#32 && t.phase == 0x0B#5) = true := by decide

/-- S1: the bits of `0xB0` at the rising edges. -/
theorem test_rising_edges : risingEdges 0x10#5 (shift8Words 0xB0#8) =
    [true, false, true, true, false, false, false, false] := by decide

theorem test_headers :
    nextIs (exec (.imageHeader 2#32) (inState .vMagic)) (fun t => t.phase == 0x03#5 && t.len == some 2#32) = true ∧
    nextIs (exec (.hdrBadMagic 0#32 0xFFFFFFFF#32) (inState .vMagic)) (fun t =>
      t.phase == 0x12#5 && t.result == some 1#3 && t.trace == [.rd 0 [0#8, 0#8, 0#8, 0#8]]) = true ∧
    nextIs (exec (.hdrTooLarge 0x220001#32) (inState .vMagic)) (fun t =>
      t.phase == 0x12#5 && t.result == some 2#3) = true := by decide

theorem test_pin_words :
    nextIs (exec .pinReset (loading .rLow)) (fun t => t.out == 0x00#5) = true ∧
    nextIs (exec .pinIdle (inState .rHigh)) (fun t => t.out == 0x10#5) = true ∧
    nextIs (exec (.pinSetup true) (inState .sShift)) (fun t => t.out == 0x12#5) = true ∧
    nextIs (exec (.pinClock false) (inState .sShift)) (fun t => t.out == 0x11#5) = true ∧
    nextIs (exec .pinOe (inState .dOe)) (fun t => t.oe == 0x13#5) = true := by decide

theorem test_in_words :
    nextIs (exec (.inInitReady 0x1B#5) (inState .wInit)) (fun t => t.phase == 0x09#5) = true ∧
    nextIs (exec (.inInitNotReady 0x00#5) (loading .sCheck)) (fun t => t.result == some 4#3) = true ∧
    nextIs (exec (.inDone 0x04#5) (inState .pSample)) (fun t => t.phase == 0x10#5) = true ∧
    nextIs (exec (.inNotDone 0x08#5) (inState .pSample)) (fun t => t.phase == 0x0E#5) = true := by decide

theorem test_results :
    nextIs (exec .resOk (inState .fIdle)) (fun t => t.result == some 0#3) = true ∧
    nextIs (exec .resBadMagic (inState .vMagic)) (fun t => t.result == some 1#3) = true ∧
    nextIs (exec .resImageTooLarge (inState .vLen)) (fun t => t.result == some 2#3) = true ∧
    nextIs (exec .resInitTimeout (inState .wInit)) (fun t => t.result == some 3#3) = true ∧
    nextIs (exec .resMidStreamAbort (inState .sCheck)) (fun t => t.result == some 4#3) = true ∧
    nextIs (exec .resDoneTimeout (inState .pDeadline)) (fun t => t.result == some 5#3 && t.phase == 0x12#5) = true := by
  decide

theorem test_events :
    nextIs (exec (.evOe 0x13#5) (inState .dOe)) (fun t => t.oe == 0x13#5) = true ∧
    nextIs (exec (.evOut 0x12#5) (inState .sShift)) (fun t => t.out == 0x12#5) = true ∧
    nextIs (exec .evIn { inState .wInit with ins := [0x08#5] }) (fun t => t.trace == [.inp 0x08#5]) = true ∧
    nextIs (exec .evNow { inState .pAnchor with nows := [7#64] }) (fun t => t.trace == [.now 7#64]) = true ∧
    nextIs (exec (.evWait 1#32) (inState .rLowWait)) (fun t => t.trace == [.wait 1#32]) = true ∧
    nextIs (exec (.evRd 9 1) (loading .sFetch)) (fun t => t.trace == [.rd 9 [0x01#8]]) = true ∧
    nextIs (exec (.evRet 3#3) (inState .xRet)) (fun t => t.trace == [.ret 3#3]) = true ∧
    nextIs (exec .evLoad (inState .idle)) (fun t => t.phase == 0x01#5 && t.trace == [.load]) = true := by decide

theorem test_event_stops :
    refusedIs (exec .evLoad (inState .sFetch)) .overlappingLoad = true ∧
    refusedIs (exec (.evOut 0x04#5) State.reset) (.pinWordNeverWritten 0x04#5) = true ∧
    refusedIs (exec (.evOe 0x1F#5) State.reset) (.pinWordNeverWritten 0x1F#5) = true := by decide

/-- 2.1: answers 5, 5, 6 are legal; 5, 4 are not. -/
theorem test_now_contract :
    nextIs (exec .evNow { inState .idle with nows := [5#64], lastNow := some 5#64 }) (fun t =>
      t.lastNow == some 5#64) = true ∧
    refusedIs (exec .evNow { inState .idle with nows := [4#64], lastNow := some 5#64 })
      (.timeWentBackwards 4#64) = true := by decide

/-! ## Words placed for the next step -/

/-- The next step after placing the code of S_SHIFT writes the first word of the byte in SH. -/
theorem test_fetch_phase : nextIs (step (State.reset.withFetchWord 8 0x0A)) (fun t =>
    t.trace == [.out 0x12#5] && t.phase == 0x0A#5) = true := by decide

theorem test_fetch_header : nextIs (step (State.reset.withFetchWord 64 0x5341523100000002)) (fun t =>
    t.trace == [.rd 0 [0x53#8, 0x41#8, 0x52#8, 0x31#8]] && t.phase == 0x02#5) = true := by decide

theorem test_fetch_shift8 :
    nextIs (step (State.reset.withFetchWord 128 0x11101110111011101312131211101312)) (fun t =>
      t.trace == [.out 0x12#5] && t.sh == some 0xB0#8) = true := by decide

theorem test_fetch_reserved : faultIs (step (State.reset.withFetchWord 8 0x13)) (.stuckPhase 0x13#5) = true := by decide

/-! ## The image space -/

theorem test_memory : Memory.wf (loading .idle).mem = true ∧ Memory.read (loading .idle).mem 7 = 0x02#8 ∧
    Memory.read (loading .idle).mem 4 = 0x00#8 ∧ Memory.write [(3, 1#8)] 3 0x00#8 = [] := by decide

/-! ## Witnesses: the hypotheses of the obligations, met at boundary values, with the outcome where it is cheap -/

theorem witness_DecodeOfEncodeIsTheInstruction : Instr.wellFormed (.imageHeader 0x220000#32) = true ∧
    Instr.wellFormed (.evRd 0x220007 1) = true ∧ Instr.wellFormed (.evRet 5#3) = true ∧
    Instr.wellFormed (.inNotDone 0x1B#5) = true := by decide

theorem witness_DecodingLosesNoBit : decode (.outBit 0x12#5) = .ok (.pinSetup true) ∧
    decode (.evt3 5#3 [8, 1]) = .ok (.evRd 8 1) := by decide

theorem witness_ReservedWordsDecodeToNothing : 0x13 ≤ (0x13#5 : PhaseCode).toNat ∧ 0x13 ≤ (0x1F#5 : PhaseCode).toNat ∧
    (0x01#5 : PinWord) ∉ [0x00#5, 0x10#5, 0x11#5, 0x12#5, 0x13#5] ∧ (0x00#5 : PinWord) ≠ 0x13#5 ∧
    6 ≤ (6#3 : Code3).toNat ∧ 6 ≤ (7#3 : Code3).toNat := by decide

theorem witness_HeaderIsValidExactlyWhen :
    headerMagic 0x5341523000000002#64 ≠ 0x53415231#32 ∧
    headerMagic 0x5341523100220001#64 = 0x53415231#32 ∧ 0x220000 < (headerLength 0x5341523100220001#64).toNat ∧
    headerMagic 0x5341523100220000#64 = 0x53415231#32 ∧ (headerLength 0x5341523100220000#64).toNat ≤ 0x220000 := by
  decide

theorem witness_BlockResetAtAnyTime : ({ loading .sShift with host := [.blockReset] } : State).host = .blockReset :: [] ∧
    nextIs (step { loading .sShift with host := [.blockReset] }) (fun t =>
      t.phase == 0x00#5 && t.oe == 0x00#5 && t.sh == none && t.trace == []) = true := by decide

theorem witness_StepRunsTheDecodedOperation :
    decode (.phase5 (loading .sShift).phase) = .ok .sShift ∧ (loading .sShift).host.head? ≠ some .blockReset ∧
    ((loading .sShift).host.head? = some .load → (loading .sShift).phase = 0x00#5) ∧
    nextIs (exec .sShift (loading .sShift)) (fun _ => true) = true ∧
    faultIs (exec .sShift (inState .sShift)) (.noValue .sh) = true ∧
    refusedIs (exec .vMagic { inState .vMagic with imageExtent := 7 }) (.imageBeyondExtent 0) = true := by decide

theorem witness_StepsThatDoNotExist :
    ({ loading .sFetch with host := [.load] } : State).host = .load :: [] ∧ (loading .sFetch).phase ≠ 0x00#5 ∧
    0x13 ≤ ({ State.reset with phase := 0x13#5 } : State).phase.toNat ∧ State.reset.host.head? ≠ some .blockReset ∧
    State.reset.host.head? ≠ some .load := by decide

theorem witness_LoadBeginsASession : ({ State.reset with host := [.load] } : State).host.head? = some .load ∧
    State.reset.host.head? ≠ some .load ∧ State.reset.phase = 0x00#5 ∧ (loading .xRet).phase ≠ 0x00#5 := by decide

/-- The magic of 95_test_vectors 2.2 and one whose last byte is off by one, with the least readable extent. -/
theorem witness_VMagicComparesTheMagic : 8 ≤ ({ State.reset with imageExtent := 8 } : State).imageExtent ∧
    be32OfBytes (imageBytes (loading .vMagic) 0 4) = 0x53415231#32 ∧
    be32OfBytes (imageBytes (withHeader .vMagic [0x53#8, 0x41#8, 0x52#8, 0x30#8]) 0 4) ≠ 0x53415231#32 := by decide

theorem witness_VLenBoundsTheLength :
    (be32OfBytes (imageBytes (withHeader .vLen [0#8, 0#8, 0#8, 0#8, 0#8, 0x22#8, 0#8, 0#8]) 4 4)).toNat = 0x220000 ∧
    (be32OfBytes (imageBytes (withHeader .vLen [0#8, 0#8, 0#8, 0#8, 0#8, 0x22#8, 0#8, 1#8]) 4 4)).toNat = 0x220001 := by
  decide

theorem witness_HeaderRowsAreTheValidator :
    (0x220000#32 : Word32).toNat ≤ 0x220000 ∧ (0x53415230#32 : Word32) ≠ 0x53415231#32 ∧
    0x220000 < (0x220001#32 : Word32).toNat ∧ (inState .vMagic).phase = 0x01#5 ∧ (inState .vLen).phase = 0x02#5 ∧
    (inState .dOe).phase ≠ 0x01#5 ∧ (inState .dOe).phase ≠ 0x02#5 := by decide

theorem witness_TwoValidatorStepsAreTheHeaderRow :
    (loading .vMagic).phase = 0x01#5 ∧ (loading .vMagic).host = [] ∧ 8 ≤ (loading .vMagic).imageExtent ∧
    imageBytes (loading .vMagic) 0 8 = headerBytes 0x5341523100000002#64 ∧
    decode (.hdr64 0x5341523100000002#64) = .ok (.imageHeader 2#32) ∧
    headerMagic 0x5341523100000002#64 = 0x53415231#32 ∧
    imageBytes State.reset 0 8 = headerBytes 0#64 ∧ decode (.hdr64 0#64) = .ok (.hdrBadMagic 0#32 0#32) ∧
    headerMagic 0#64 ≠ 0x53415231#32 := by decide

theorem witness_ReadsBeyondTheExtentAreRefused :
    ({ State.reset with imageExtent := 7 } : State).imageExtent < 8 ∧
    (loading .sFetch).idx = some 0#32 ∧ (loading .sFetch).len = some 2#32 ∧ (0#32 : Word32) ≠ 2#32 ∧
    ({ loading .sFetch with imageExtent := 8 } : State).imageExtent < 8 + (0#32 : Word32).toNat + 1 ∧
    State.reset.imageExtent < 0x220008 + 1 := by decide

theorem witness_BadMagicLoadTouchesNoPin : ({ State.reset with host := [.load] } : State).host = [.load] ∧
    State.reset.phase = 0x00#5 ∧ 8 ≤ State.reset.imageExtent ∧
    be32OfBytes (imageBytes { State.reset with host := [.load] } 0 4) ≠ 0x53415231#32 := by decide

theorem witness_TooLargeLoadTouchesNoPin :
    let s : State := { withHeader .idle [0x53#8, 0x41#8, 0x52#8, 0x31#8, 0#8, 0x22#8, 0#8, 1#8] with host := [.load] }
    s.phase = 0x00#5 ∧ s.host = [.load] ∧ 8 ≤ s.imageExtent ∧ be32OfBytes (imageBytes s 0 4) = 0x53415231#32 ∧
    0x220000 < (be32OfBytes (imageBytes s 4 4)).toNat := by decide

theorem witness_LoadForgetsTheLastSession : ({ loading .idle with host := [.load, .quiet] } : State).phase = 0x00#5 ∧
    ({ loading .idle with host := [.load, .quiet] } : State).host = .load :: [.quiet] := by decide

/-- Samples with bit 3 alone and with every bit but bit 3. -/
theorem witness_InitChecksDecideOnOneSample :
    ({ inState .wInit with ins := [0x08#5] } : State).ins = 0x08#5 :: [] ∧ (0x08#5 : PinWord).getLsbD 3 = true ∧
    (0x17#5 : PinWord).getLsbD 3 = false := by decide

theorem witness_ResetSequenceIsSixEvents :
    let s : State := { loading .dOe with ins := [0x08#5] }
    s.phase = 0x03#5 ∧ s.host = [] ∧ s.ins = 0x08#5 :: [] ∧ (0x08#5 : PinWord).getLsbD 3 = true ∧
    (0x17#5 : PinWord).getLsbD 3 = false := by decide

theorem witness_SFetchReadsTheNextByte :
    (loading .sFetch).idx = some 0#32 ∧ (loading .sFetch).len = some 2#32 ∧ (0#32 : Word32) ≠ 2#32 ∧
    8 + (0#32 : Word32).toNat + 1 ≤ (loading .sFetch).imageExtent ∧
    ({ loading .sFetch with idx := some 2#32 } : State).idx = (loading .sFetch).len ∧
    8 + (0x21FFFF#32 : Word32).toNat + 1 ≤ State.reset.imageExtent := by decide

theorem witness_ShiftingStep : (loading .sShift).sh = some 0xB0#8 ∧ (loading .sShift).half = false ∧
    ({ loading .sShift with half := true, bitcnt := 6#3 } : State).bitcnt.toNat < 7 ∧
    ({ loading .sShift with half := true, bitcnt := 7#3 } : State).bitcnt = 7#3 ∧
    (loading .sShift).idx = some 0#32 := by decide

theorem witness_Shift8EmitsAByte : (loading .sShift).phase = 0x0A#5 ∧ (loading .sShift).idx = some 0#32 ∧
    (loading .pFill).phase = 0x0E#5 ∧ (loading .fComp).phase = 0x10#5 ∧
    (loading .sFetch).phase ∉ [0x0A#5, 0x0E#5, 0x10#5] := by decide

theorem witness_SixteenStepsAreShift8 :
    let s := loading .fComp
    s.phase ∈ [0x0A#5, 0x0E#5, 0x10#5] ∧ s.host = [] ∧ s.sh = some 0xB0#8 ∧ s.bitcnt = 0#3 ∧ s.half = false ∧
    s.idx.isSome = true := by decide

/-- Both payload bytes sent, and a further sample left over. -/
theorem witness_PayloadIsSentInOrder :
    let s : State := { loading .sFetch with ins := [0x08#5, 0x0C#5] ++ [0x00#5] }
    s.phase = 0x09#5 ∧ s.host = [] ∧ s.bitcnt = 0#3 ∧ s.half = false ∧ s.idx = some 0#32 ∧ s.len = some 2#32 ∧
    s.ins = [0x08#5, 0x0C#5] ++ [0x00#5] ∧ (∀ v ∈ ([0x08#5, 0x0C#5] : List PinWord), v.getLsbD 3 = true) ∧
    (0#32 : Word32).toNat + 2 ≤ (2#32 : Word32).toNat ∧ 8 + (2#32 : Word32).toNat ≤ s.imageExtent := by decide

/-- 95_test_vectors P5 with the fall one byte later, at the last check. -/
theorem witness_AbortAfterExactlyKBytes :
    let s : State := { loading .sFetch with ins := [0x08#5] ++ 0x17#5 :: [] }
    s.phase = 0x09#5 ∧ s.host = [] ∧ s.bitcnt = 0#3 ∧ s.half = false ∧ s.idx = some 0#32 ∧ s.len = some 2#32 ∧
    s.ins = [0x08#5] ++ 0x17#5 :: [] ∧ (∀ v ∈ ([0x08#5] : List PinWord), v.getLsbD 3 = true) ∧
    (0x17#5 : PinWord).getLsbD 3 = false ∧ (0#32 : Word32).toNat + 1 + 1 ≤ (2#32 : Word32).toNat ∧
    8 + (2#32 : Word32).toNat ≤ s.imageExtent := by decide

theorem witness_PAnchorSetsT0 : nowInContract { inState .pAnchor with nows := [500#64] } = true ∧
    nowInContract (inState .pAnchor) = true := by decide

theorem witness_PSampleChoosesOnDone : ({ inState .pSample with ins := [0x0C#5] } : State).ins = 0x0C#5 :: [] := by
  decide

/-- 95_test_vectors 2.5, T0 = 500: 600 is the first count that fails, 599 the last that does not. -/
theorem witness_PDeadlineComparesWithT0 :
    let s : Millis → State := fun t => { loading .pDeadline with nows := [t], lastNow := some 500#64 }
    (s 600#64).t0 = some 500#64 ∧ nowInContract (s 600#64) = true ∧ nowInContract (s 599#64) = true ∧
    ((nowAnswer (s 600#64)).toNat - (500#64 : Millis).toNat ≥ (100 : Int)) ∧
    ((nowAnswer (s 599#64)).toNat - (500#64 : Millis).toNat < (100 : Int)) := by decide

theorem witness_NowIsMonotonic :
    let s : State := { loading .pDeadline with nows := [499#64], lastNow := some 500#64 }
    s.nows = 499#64 :: [] ∧ s.lastNow = some 500#64 ∧ (499#64 : Millis).toNat < (500#64 : Millis).toNat ∧
    s.t0.isSome = true ∧ (500#64 : Millis).toNat ≤ (500#64 : Millis).toNat ∧ State.reset.nows = [] := by decide

/-- With the latest count 500, the answer 500 meets the clause on counts that are not below it. -/
theorem witness_NowIsMonotonic_equal : ∀ l, ({ State.reset with lastNow := some 500#64 } : State).lastNow = some l →
    l.toNat ≤ (500#64 : Millis).toNat := by
  intro l h; injection h with h; subst h; decide

theorem witness_InOnlySamples : ({ State.reset with ins := [0x1F#5] } : State).ins = 0x1F#5 :: [] ∧
    State.reset.ins = [] := by decide

theorem witness_FreeSamplesDecideAlike : (inState .wInit).ins = [] := by decide

theorem witness_FinishAndReturn : ({ inState .xRet with result := some 0#3 } : State).result = some 0#3 := by decide

/-- DONE high with INIT_B low, as in 95_test_vectors P8. -/
theorem witness_DoneSeenEndsWithSuccess :
    let s : State := { loading .pSample with ins := [0x04#5] }
    s.phase = 0x0D#5 ∧ s.host = [] ∧ s.bitcnt = 0#3 ∧ s.half = false ∧ s.ins = 0x04#5 :: [] ∧
    (0x04#5 : PinWord).getLsbD 2 = true := by decide

/-- 95_test_vectors P6: T0 = 500, counts 540, 599, 600. -/
theorem witness_TimeoutAtTheFirstElapsedCount :
    let s : State :=
      { loading .pSample with
        ins := [0x08#5, 0x08#5] ++ 0x08#5 :: [], nows := [540#64, 599#64] ++ 600#64 :: [], lastNow := some 500#64 }
    s.phase = 0x0D#5 ∧ s.host = [] ∧ s.bitcnt = 0#3 ∧ s.half = false ∧ s.t0 = some 500#64 ∧ s.lastNow = some 500#64 ∧
    s.ins = [0x08#5, 0x08#5] ++ 0x08#5 :: [] ∧ s.nows = [540#64, 599#64] ++ 600#64 :: [] ∧
    (∀ w ∈ ([0x08#5, 0x08#5] ++ [0x08#5] : List PinWord), w.getLsbD 2 = false) ∧
    (500#64 :: ([540#64, 599#64] ++ [600#64]) : List Millis).Pairwise (fun x y => x.toNat ≤ y.toNat) ∧
    (∀ u ∈ ([540#64, 599#64] : List Millis), u.toNat < (500#64 : Millis).toNat + 100) ∧
    (500#64 : Millis).toNat + 100 ≤ (600#64 : Millis).toNat := by
  intro s
  exact ⟨rfl, rfl, rfl, rfl, rfl, rfl, rfl, rfl, by decide, by simp, by simp, by simp⟩

theorem witness_OutWordsAreWrittenWhole : (0x13#5 : PinWord) ∈ [0x00#5, 0x10#5, 0x11#5, 0x12#5, 0x13#5] ∧
    (0x14#5 : PinWord) ∉ [0x00#5, 0x10#5, 0x11#5, 0x12#5, 0x13#5] ∧ (0x12#5 : PinWord) ≠ 0x13#5 := by decide

theorem witness_InWordsActWhereTested :
    (0x08#5 : PinWord).getLsbD 3 = true ∧ (0x17#5 : PinWord).getLsbD 3 = false ∧ (0x04#5 : PinWord).getLsbD 2 = true ∧
    (0x1B#5 : PinWord).getLsbD 2 = false ∧ (inState .wInit).phase = 0x08#5 ∧ (inState .sCheck).phase = 0x0B#5 ∧
    (inState .pSample).phase = 0x0D#5 ∧ (inState .sFetch).phase ≠ 0x08#5 ∧ (inState .sFetch).phase ≠ 0x0B#5 ∧
    (inState .sFetch).phase ≠ 0x0D#5 := by decide

theorem witness_IgnoredInputBitsDoNotMatter : (0x08#5 : PinWord).getLsbD 3 = (0x1F#5 : PinWord).getLsbD 3 ∧
    (0x04#5 : PinWord).getLsbD 2 = (0x1F#5 : PinWord).getLsbD 2 := by decide

theorem witness_MemReadReturnsTheBytes : 0x220007 + 1 ≤ State.reset.imageExtent := Nat.le_refl 0x220008

theorem witness_ReadingNoValueFaults :
    State.reset.idx = none ∧ State.reset.sh = none ∧ State.reset.t0 = none ∧ State.reset.result = none ∧
    ({ State.reset with idx := some 0#32 } : State).idx = some 0#32 ∧ State.reset.len = none ∧
    (let s : State := { inState .sShift with sh := some 0xFF#8, half := true, bitcnt := 7#3 }
     s.sh = some 0xFF#8 ∧ s.half = true ∧ s.bitcnt = 7#3 ∧ s.idx = none ∧ s.phase = 0x0A#5) := by decide

theorem witness_LinesFollowOutWhereEnabled : (loading .sShift).oe.getLsbD 4 = true ∧ (loading .sShift).oe.getLsbD 0 = true ∧
    State.reset.oe.getLsbD 1 = false := by decide

/-- One operation of each shape goes on: a load, a storing, a reading, a sampling and a register-only one. -/
theorem witness_frames : nextIs (exec .evLoad State.reset) (fun _ => true) = true ∧
    nextIs (exec .rLow (loading .rLow)) (fun _ => true) = true ∧
    nextIs (exec .vLen (loading .vLen)) (fun _ => true) = true ∧
    nextIs (exec .wInit { loading .wInit with ins := [0#5] }) (fun _ => true) = true ∧
    nextIs (exec .resOk State.reset) (fun _ => true) = true ∧
    nextIs (exec Phase.sFetch.instr (loading .sFetch)) (fun t => t.len == some 2#32) = true := by decide

/-- A clause of the invariant about phases the state is not in. -/
theorem of_elsewhere {P : Prop} {b : Bool} (hb : b = false) (h : b = true) : P := by
  rw [hb] at h; exact Bool.noConfusion h

/-- A state after reset whose host issues LOAD. -/
def asked : State := { State.reset with host := [.load] }

/-- A state after reset whose host issues LOAD meets the invariant, and its step goes on. -/
theorem witness_StepKeepsTheInvariant : Inv asked ∧ nextIs (step asked) (fun t => t.phase == 0x01#5) = true := by
  refine ⟨⟨rfl, rfl, ?_, ?_⟩, by decide⟩
  · exact ⟨fun _ => ⟨rfl, rfl⟩, fun _ h => (nomatch h), of_elsewhere rfl, of_elsewhere rfl, of_elsewhere rfl,
      of_elsewhere rfl, of_elsewhere rfl, of_elsewhere rfl, of_elsewhere rfl, of_elsewhere rfl, of_elsewhere rfl⟩
  · exact ⟨.inl ⟨rfl, rfl⟩, of_elsewhere rfl, by decide, of_elsewhere rfl, of_elsewhere rfl, of_elsewhere rfl,
      of_elsewhere rfl, of_elsewhere rfl, of_elsewhere rfl, of_elsewhere rfl⟩

/-- A load in X_RET with a result and the word it leaves on the lines. -/
def returning (c : Code3) (out : PinWord) : State :=
  { loading .xRet with idx := some 1#32, sh := some 0xB0#8, result := some c, out := out }

theorem returning_inv (k : Kind) (out : PinWord) (ho : out ∈ outWords)
    (h : ∀ j : Kind, some k.code = some j.code →
      (j = .ok → out = pinIdleWord) ∧ (j = .initTimeout → out = pinIdleWord) ∧
      (j = .midStreamAbort → out = pinClockWord false) ∧ (j = .doneTimeout → out = pinClockWord true)) :
    Inv (returning k.code out) := by
  refine ⟨rfl, (by decide : Memory.wf (loading .xRet).mem = true), ?_, ?_⟩
  · refine ⟨fun _ => ⟨rfl, rfl⟩, ?_, of_elsewhere rfl, of_elsewhere rfl, of_elsewhere rfl, of_elsewhere rfl,
      of_elsewhere rfl, of_elsewhere rfl, of_elsewhere rfl, of_elsewhere rfl, fun _ => ⟨k, rfl⟩⟩
    intro l hl; injection hl with hl; subst hl; exact ⟨by decide, 1#32, rfl, by decide⟩
  · refine ⟨.inr rfl, of_elsewhere rfl, ho, of_elsewhere rfl, of_elsewhere rfl, of_elsewhere rfl, of_elsewhere rfl,
      of_elsewhere rfl, of_elsewhere rfl, ?_⟩
    intro _ j hj
    obtain ⟨h0, h3, h4, h5⟩ := h j hj
    exact ⟨fun e => ⟨rfl, h0 e⟩, fun e => ⟨rfl, h3 e⟩, fun e => ⟨rfl, 0xB0#8, rfl, h4 e⟩, fun e => ⟨rfl, h5 e⟩⟩

/-- Each clause of the statement on the pins at return: success, InitTimeout, MidStreamAbort, DoneTimeout. -/
theorem witness_PinsAtReturnByResult :
    Inv (returning 0#3 0x10#5) ∧ Inv (returning 3#3 0x10#5) ∧ Inv (returning 4#3 0x11#5) ∧ Inv (returning 5#3 0x13#5) ∧
    nextIs (step (returning 4#3 0x11#5)) (fun t => t.trace == (returning 4#3 0x11#5).trace ++ [.ret 4#3]) = true :=
  ⟨returning_inv .ok _ (by decide) (by intro j; cases j <;> decide),
   returning_inv .initTimeout _ (by decide) (by intro j; cases j <;> decide),
   returning_inv .midStreamAbort _ (by decide) (by intro j; cases j <;> decide),
   returning_inv .doneTimeout _ (by decide) (by intro j; cases j <;> decide), by decide⟩

theorem witness_LinesStayDrivenAndReleased :
    nextIs (step (loading .sShift)) (fun _ => true) = true ∧ (loading .sShift).host.head? ≠ some .blockReset ∧
    (loading .sShift).oe = 0x13#5 ∧ (loading .sShift).phase ≠ 0x04#5 ∧ (loading .sShift).out.getLsbD 4 = true := by
  decide

/-- The state between the two writes of the first bit of `0xB0`. -/
def betweenWrites : State := { loading .sShift with half := true, out := 0x12#5 }

theorem witness_DinIsStableAtEveryRisingEdge : Inv betweenWrites ∧ betweenWrites.out.getLsbD 0 = false ∧
    nextIs (step betweenWrites) (fun t => t.out.getLsbD 0 && t.out.getLsbD 1) = true := by
  refine ⟨⟨rfl, (by decide : Memory.wf (loading .sShift).mem = true), ?_, ?_⟩, by decide, by decide⟩
  · refine ⟨fun h => Bool.noConfusion h, ?_, of_elsewhere rfl, fun _ => rfl, fun _ => ⟨0#32, 2#32, rfl, rfl, by decide⟩,
      of_elsewhere rfl, of_elsewhere rfl, fun _ => rfl, of_elsewhere rfl, of_elsewhere rfl, of_elsewhere rfl⟩
    intro l hl; injection hl with hl; subst hl; exact ⟨by decide, 0#32, rfl, by decide⟩
  · exact ⟨.inr rfl, fun _ => rfl, by decide, of_elsewhere rfl, of_elsewhere rfl, fun _ => rfl,
      fun _ _ => ⟨0xB0#8, rfl, rfl⟩, of_elsewhere rfl, of_elsewhere rfl, of_elsewhere rfl⟩

/-- The invariant states above also witness the statement that no step faults there. -/
theorem witness_InvariantStatesDoNotFault : Inv (returning 5#3 0x13#5) := witness_PinsAtReturnByResult.2.2.2.1

/-- An event that is the one a code stands for, and an event row of each outcome that goes on. -/
theorem witness_TraceEventsCarryTagAndPayload :
    eventOfCode 2#3 [0x1F] = some (.inp 0x1F#5) ∧ eventTag (.inp 0x1F#5) = 2#3 ∧ eventPayload (.inp 0x1F#5) = [0x1F] ∧
    nextIs (exec (eventRow (.inp 0x08#5)) { State.reset with ins := [0x08#5] }) (fun _ => true) = true ∧
    nextIs (exec (eventRow (.now 7#64)) { State.reset with nows := [7#64] }) (fun _ => true) = true ∧
    nextIs (exec (eventRow (.rd 9 [0x01#8])) (loading .sFetch)) (fun t => t.trace == [.rd 9 [0x01#8]]) = true := by
  decide

theorem witness_NothingMovesBeforeValidation :
    nextIs (step (loading .vLen)) (fun t => t.phase == 0x03#5) = true ∧
    nextIs (step (loading .vMagic)) (fun t => t.phase == 0x02#5) = true ∧
    nextIs (step { loading .idle with host := [.load] }) (fun _ => true) = true ∧
    (loading .idle).phase ∈ [0x00#5, 0x01#5, 0x02#5, 0x12#5] ∧
    (loading .idle).host.head? ≠ some .blockReset := by decide

end Sys2Proof.Tests
end

namespace Sys2Proof.Proofs

/-- Settles O9: the state after reset is one record, and each entry of R35's table is a field of it. -/
theorem resetLeaves : Obligations.ResetLeaves :=
  ⟨rfl, rfl, rfl, rfl, rfl, rfl, rfl, rfl, rfl, rfl⟩

end Sys2Proof.Proofs

namespace Sys2Proof.Proofs

open Machine

/-! ## What an outcome keeps of a state -/

section Keeps

variable {α : Type} {f : State → α} {s : State}

/-- Where an operation on `s` answers a next state, `f` reads there as in `s`. -/
def Keeps (f : State → α) (s : State) (r : Result) : Prop := ∀ t, r = .next t → f t = f s

@[simp] theorem keeps_next {t : State} : Keeps f s (.next t) ↔ f t = f s :=
  ⟨fun h => h t rfl, fun h _ ht => by injection ht with ht; exact ht ▸ h⟩

@[simp] theorem keeps_fault {r : Fault} : Keeps f s (.fault r) := nofun

@[simp] theorem keeps_refused {r : Refusal} : Keeps f s (.refused r) := nofun

theorem keeps_withNow {k : Millis → State → Result} (hf : f (takeNow s) = f s)
    (hk : ∀ a, Keeps f (takeNow s) (k a (takeNow s))) : Keeps f s (withNow s k) := fun t h =>
  (hk _ t (withNow_next h).2).trans hf

theorem keeps_withRead {need offset n : Nat} {k : List Byte → State → Result}
    (hf : ∀ e, f (emit e s) = f s) (hk : ∀ bs e, Keeps f (emit e s) (k bs (emit e s))) :
    Keeps f s (withRead s need offset n k) := fun t h =>
  (hk _ _ t (withRead_next h).2).trans (hf _)

/-- What one shifting step keeps, any number of them in a row keeps. -/
theorem keeps_shiftSteps {next : PhaseCode} {count : Bool}
    (hf : ∀ s, Keeps f s (shiftStep next count s)) (n : Nat) : Keeps f s (shiftSteps next count n s) := by
  induction n generalizing s with
  | zero => exact keeps_next.2 rfl
  | succ n ih =>
    unfold shiftSteps
    cases hs : shiftStep next count s with
    | next u => exact fun t ht => (ih t ht).trans (hf s u hs)
    | fault r => exact keeps_fault
    | refused r => exact keeps_refused

end Keeps

/-! ## The image and the host's script -/

/-- The image space, where the image lies, how much of it is readable, and the host's script. -/
def imageAndHost (s : State) : List Host.Cell × Nat × Nat × List HostInput :=
  (s.mem, s.imageBase, s.imageExtent, s.host)

section ImageAndHost

variable (s : State)

@[simp] theorem emit_imageAndHost (e : Event) : imageAndHost (emit e s) = imageAndHost s := rfl
@[simp] theorem goto_imageAndHost (p : Phase) : imageAndHost (goto p s) = imageAndHost s := rfl
@[simp] theorem writeOe_imageAndHost (m : PinWord) : imageAndHost (writeOe m s) = imageAndHost s := rfl
@[simp] theorem writeOut_imageAndHost (v : PinWord) : imageAndHost (writeOut v s) = imageAndHost s := rfl
@[simp] theorem wait_imageAndHost (us : Word32) : imageAndHost (wait us s) = imageAndHost s := rfl
@[simp] theorem finish_imageAndHost (k : Kind) : imageAndHost (finish k s) = imageAndHost s := rfl
@[simp] theorem raise_imageAndHost (k : Kind) : imageAndHost (raise k s) = imageAndHost s := rfl
@[simp] theorem leave_imageAndHost (c : Code3) : imageAndHost (leave c s) = imageAndHost s := rfl
@[simp] theorem startSession_imageAndHost : imageAndHost (startSession s) = imageAndHost s := rfl

@[simp] theorem takeIn_imageAndHost : imageAndHost (takeIn s) = imageAndHost s := by simp [imageAndHost]

@[simp] theorem takeNow_imageAndHost : imageAndHost (takeNow s) = imageAndHost s := by simp [imageAndHost]

@[simp] theorem decideInit_imageAndHost (v : PinWord) : imageAndHost (decideInit v s) = imageAndHost s := by
  unfold decideInit; split <;> rfl

@[simp] theorem decideCheck_imageAndHost (v : PinWord) : imageAndHost (decideCheck v s) = imageAndHost s := by
  unfold decideCheck; split <;> rfl

@[simp] theorem decideDone_imageAndHost (v : PinWord) : imageAndHost (decideDone v s) = imageAndHost s := rfl

@[simp] theorem decideMagic_imageAndHost (m : Word32) : imageAndHost (decideMagic m s) = imageAndHost s := by
  unfold decideMagic; split <;> rfl

@[simp] theorem decideLen_imageAndHost (l : Word32) : imageAndHost (decideLen l s) = imageAndHost s := by
  unfold decideLen; split <;> rfl

@[simp] theorem answerInit_imageAndHost (v : PinWord) : imageAndHost (answerInit v s) = imageAndHost s := by
  unfold answerInit; split_ifs <;> simp

@[simp] theorem answerDone_imageAndHost (v : PinWord) : imageAndHost (answerDone v s) = imageAndHost s := by
  unfold answerDone; split_ifs <;> simp

@[simp] theorem validateHeader_imageAndHost (m l : Word32) :
    imageAndHost (validateHeader m l s) = imageAndHost s := by
  unfold validateHeader validateLen; split_ifs <;> simp

theorem shiftStep_keeps_imageAndHost (next : PhaseCode) (count : Bool) :
    Keeps imageAndHost s (shiftStep next count s) := by
  intro t h
  obtain ⟨-, -, -, -, -, -, -, -, -, -, hmem, hbase, hextent, hhost, -⟩ := shiftStep_frame h
  simp [imageAndHost, hmem, hbase, hextent, hhost]

theorem execShift8_keeps_imageAndHost (b : Byte) : Keeps imageAndHost s (execShift8 b s) :=
  keeps_shiftSteps (s := { s with sh := some b, bitcnt := 0#3, half := false })
    (fun u => shiftStep_keeps_imageAndHost u _ _) 16

theorem execSFetch_keeps_imageAndHost : Keeps imageAndHost s (execSFetch s) := by
  unfold execSFetch
  split
  · split
    · exact keeps_next.2 rfl
    · exact keeps_withRead (fun _ => rfl) fun _ _ => keeps_next.2 rfl
  · exact keeps_fault
  · exact keeps_fault

theorem execPDeadline_keeps_imageAndHost : Keeps imageAndHost s (execPDeadline s) := by
  unfold execPDeadline
  split
  · exact keeps_fault
  · refine keeps_withNow (takeNow_imageAndHost s) fun _ => keeps_next.2 ?_
    split <;> rfl

theorem execXRet_keeps_imageAndHost : Keeps imageAndHost s (execXRet s) := by
  unfold execXRet
  split <;> simp

/-- R63: an operation reads the image through `withRead`, and every register it writes is the loader's own. The cases
are the reads, the counts, the shifting steps, the operations that can refuse or fault, and those that always go on. -/
theorem exec_keeps_imageAndHost (i : Instr) : Keeps imageAndHost s (exec i s) := by
  cases i with
  | vMagic | vLen | evRd =>
    simp only [exec, execVMagic, execVLen, execEvRd]
    exact keeps_withRead (emit_imageAndHost s) fun _ _ => by simp
  | sFetch => exact execSFetch_keeps_imageAndHost s
  | pAnchor | evNow =>
    simp only [exec, execPAnchor, execEvNow]
    exact keeps_withNow (takeNow_imageAndHost s) fun _ => keeps_next.2 rfl
  | pDeadline => exact execPDeadline_keeps_imageAndHost s
  | sShift | pFill | fComp => exact shiftStep_keeps_imageAndHost s _ _
  | shift8 b => exact execShift8_keeps_imageAndHost s b
  | xRet => exact execXRet_keeps_imageAndHost s
  | evOe | evOut | evLoad | idle =>
    simp only [exec, execEvOe, execEvOut, execEvLoad, execIdle]
    split <;> simp
  | _ => exact keeps_next.2 (by simp)

end ImageAndHost

/-- Settles O49: the four fields of `imageAndHost` are kept, and a byte reads as before from the same image space. -/
theorem noInstructionWritesTheImage : Obligations.NoInstructionWritesTheImage := by
  intro i s t h
  have hkept : imageAndHost t = imageAndHost s := exec_keeps_imageAndHost s i t h
  simp only [imageAndHost, Prod.mk.injEq] at hkept
  obtain ⟨hmem, hbase, hextent, hhost⟩ := hkept
  exact ⟨hmem, fun a => by rw [hmem], hbase, hextent, hhost⟩

end Sys2Proof.Proofs

namespace Sys2Proof.Proofs

open Machine Safety

/-! ## The header word and its fields -/

@[simp] theorem magicOk_iff {m : Word32} : magicOk m = true ↔ m = Config.MAGIC := beq_iff_eq

@[simp] theorem lengthOk_iff {l : Word32} : lengthOk l = true ↔ l.toNat ≤ Config.MAX_LEN.toNat := decide_eq_true_iff

/-- A header word is made of its two fields (R91). -/
theorem headerWord_fields (h : BitVec 64) : headerWord (headerMagic h) (headerLength h) = h :=
  (BitVec.extractLsb'_append_extractLsb'_eq_extractLsb' rfl).trans BitVec.extractLsb'_eq_self

/-- The mask of R93 keeps the magic and clears the length. -/
theorem headerWord_and_mask (m l : Word32) :
    headerWord m l &&& headerWord (BitVec.allOnes 32) 0#32 = headerWord m 0#32 :=
  calc headerWord m l &&& headerWord (BitVec.allOnes 32) 0#32
    _ = headerWord (m &&& BitVec.allOnes 32) (l &&& 0#32) := BitVec.and_append
    _ = headerWord m 0#32 := by rw [BitVec.and_allOnes, BitVec.and_zero]

/-- The magic field is tested by match and mask (R93). -/
theorem headerMagic_eq_iff_masked (h : BitVec 64) (m : Word32) :
    headerMagic h = m ↔ h &&& headerWord (BitVec.allOnes 32) 0#32 = headerWord m 0#32 :=
  calc headerMagic h = m
    _ ↔ headerWord (headerMagic h) 0#32 = headerWord m 0#32 := (BitVec.append_left_inj 0#32).symm
    _ ↔ h &&& headerWord (BitVec.allOnes 32) 0#32 = headerWord m 0#32 := by
      rw [← headerWord_and_mask _ (headerLength h), headerWord_fields]

/-! ## What a header decodes to -/

section Header

variable {h : BitVec 64}

theorem decode_hdr64_of_magic_ne (hm : headerMagic h ≠ Config.MAGIC) :
    decode (.hdr64 h) = .ok (.hdrBadMagic (headerMagic h) (headerLength h)) := by
  simp [decode, hm]

theorem decode_hdr64_of_length_gt (hm : headerMagic h = Config.MAGIC)
    (hl : Config.MAX_LEN.toNat < (headerLength h).toNat) :
    decode (.hdr64 h) = .ok (.hdrTooLarge (headerLength h)) := by
  simp [decode, hm, Nat.not_le_of_lt hl]

theorem decode_hdr64_of_valid (hm : headerMagic h = Config.MAGIC)
    (hl : (headerLength h).toNat ≤ Config.MAX_LEN.toNat) :
    decode (.hdr64 h) = .ok (.imageHeader (headerLength h)) := by
  simp [decode, hm, hl]

/-- R93: the three rows a header can decode to are distinct, and only a valid one is an image header. -/
theorem decode_hdr64_imageHeader_iff :
    (∃ l, decode (.hdr64 h) = .ok (.imageHeader l)) ↔
      headerMagic h = Config.MAGIC ∧ (headerLength h).toNat ≤ Config.MAX_LEN.toNat := by
  constructor
  · rintro ⟨l, hd⟩
    by_cases hm : headerMagic h = Config.MAGIC
    · refine ⟨hm, Nat.le_of_not_lt fun hl => ?_⟩
      simp [decode_hdr64_of_length_gt hm hl] at hd
    · simp [decode_hdr64_of_magic_ne hm] at hd
  · rintro ⟨hm, hl⟩
    exact ⟨_, decode_hdr64_of_valid hm hl⟩

end Header

/-- Settles O7: the three rows a header can decode to, with the magic's match and mask. -/
theorem headerIsValidExactlyWhen : Obligations.HeaderIsValidExactlyWhen := fun h =>
  ⟨decode_hdr64_imageHeader_iff, headerMagic_eq_iff_masked h Config.MAGIC, decode_hdr64_of_magic_ne,
    decode_hdr64_of_length_gt⟩

/-! ## The OUT words of a sequence of bits -/

/-- The setup word and the clock word of one bit (R98). -/
def bitWords (d : Bool) : List PinWord := [pinSetupWord d, pinClockWord d]

/-- A byte's sixteen words are those of its bits, in the order R98 sends them. -/
theorem shift8Words_eq_flatMap_bitWords (b : Byte) : shift8Words b = (bitsMsbFirst b).flatMap bitWords := rfl

/-- Whatever word stood before, a bit's two words raise CCLK once, at the clock word, with the bit on DIN (R184). -/
theorem risingEdges_bitWords_append (prev : PinWord) (d : Bool) (ws : List PinWord) :
    risingEdges prev (bitWords d ++ ws) = d :: risingEdges (pinClockWord d) ws := by
  have hsetup : lineHigh Config.CCLK_BIT (pinSetupWord d) = false := by cases d <;> decide
  have hclock : lineHigh Config.CCLK_BIT (pinClockWord d) = true := by cases d <;> decide
  have hdin : lineHigh Config.DIN_BIT (pinClockWord d) = d := by cases d <;> decide
  simp [bitWords, risingEdges, hsetup, hclock, hdin]

/-- The target receives the bits that were sent, one per rising edge, whatever word stood before. -/
theorem risingEdges_flatMap_bitWords (prev : PinWord) (ds : List Bool) :
    risingEdges prev (ds.flatMap bitWords) = ds := by
  induction ds generalizing prev with
  | nil => rfl
  | cons d ds ih => rw [List.flatMap_cons, risingEdges_bitWords_append, ih]

/-- Settles O8: a byte's words are those of its eight bits, and each bit is received at its one rising edge. -/
theorem bytesAreSentMostSignificantBitFirst : Obligations.BytesAreSentMostSignificantBitFirst := fun b prev =>
  ⟨shift8Words_eq_flatMap_bitWords b, risingEdges_flatMap_bitWords prev (bitsMsbFirst b)⟩

end Sys2Proof.Proofs

namespace Sys2Proof.Proofs

open Machine

/-! ## The validator's two reads and decisions -/

section Validator

variable {s : State}

/-- Four bytes of the image are those at four ascending offsets (R123). -/
theorem imageBytes_four (s : State) (offset : Nat) : imageBytes s offset 4 =
    [Memory.read s.mem (s.imageBase + offset), Memory.read s.mem (s.imageBase + (offset + 1)),
      Memory.read s.mem (s.imageBase + (offset + 2)), Memory.read s.mem (s.imageBase + (offset + 3))] := rfl

/-- A read within the readable extent goes on with its bytes, after its event (R64, R123). -/
theorem withRead_of_le {need : Nat} (h : need ≤ s.imageExtent) (offset n : Nat) (k : List Byte → State → Result) :
    withRead s need offset n k = k (imageBytes s offset n) (emit (.rd offset (imageBytes s offset n)) s) :=
  if_pos h

theorem decideMagic_of_eq {m : Word32} (hm : m = Config.MAGIC) (s : State) : decideMagic m s = goto .vLen s :=
  if_pos (magicOk_iff.2 hm)

theorem decideMagic_of_ne {m : Word32} (hm : m ≠ Config.MAGIC) (s : State) : decideMagic m s = raise .badMagic s :=
  if_neg (mt magicOk_iff.1 hm)

theorem decideLen_of_le {l : Word32} (hl : l.toNat ≤ Config.MAX_LEN.toNat) (s : State) :
    decideLen l s = goto .dOe { s with len := some l } :=
  if_pos (lengthOk_iff.2 hl)

theorem decideLen_of_gt {l : Word32} (hl : Config.MAX_LEN.toNat < l.toNat) (s : State) :
    decideLen l s = raise .imageTooLarge s :=
  if_neg (mt lengthOk_iff.1 (Nat.not_le_of_lt hl))

/-- With the header readable, V_MAGIC decides on BE32 of the bytes at 0 to 3 (R142). -/
theorem exec_vMagic_of_readable (h : Config.HEADER_BYTES ≤ s.imageExtent) :
    exec .vMagic s =
      .next (decideMagic (be32OfBytes (imageBytes s 0 4)) (emit (.rd 0 (imageBytes s 0 4)) s)) :=
  withRead_of_le h 0 4 fun bytes t => .next (decideMagic (be32OfBytes bytes) t)

/-- With the header readable, V_LEN decides on BE32 of the bytes at 4 to 7 (R143). -/
theorem exec_vLen_of_readable (h : Config.HEADER_BYTES ≤ s.imageExtent) :
    exec .vLen s =
      .next (decideLen (be32OfBytes (imageBytes s 4 4)) (emit (.rd 4 (imageBytes s 4 4)) s)) :=
  withRead_of_le h 4 4 fun bytes t => .next (decideLen (be32OfBytes bytes) t)

end Validator

/-- Settles O14: the read goes on, and the decision on BE32 of its four bytes goes to V_LEN or raises BadMagic. -/
theorem vMagicComparesTheMagic : Obligations.VMagicComparesTheMagic := by
  intro s hextent b r
  rw [exec_vMagic_of_readable hextent, imageBytes_four]
  constructor
  · intro hmagic
    exact congrArg Host.Outcome.next (decideMagic_of_eq hmagic r)
  · intro hmagic
    exact congrArg Host.Outcome.next (decideMagic_of_ne hmagic r)

/-- Settles O15: the read goes on, and the decision on BE32 of its four bytes latches LEN or raises ImageTooLarge. -/
theorem vLenBoundsTheLength : Obligations.VLenBoundsTheLength := by
  intro s hextent b l r
  rw [exec_vLen_of_readable hextent, imageBytes_four]
  constructor
  · intro hlen
    exact congrArg Host.Outcome.next (decideLen_of_le hlen r)
  · intro hlen
    exact congrArg Host.Outcome.next (decideLen_of_gt hlen r)

end Sys2Proof.Proofs

namespace Sys2Proof.Proofs

open Machine

/-! ## The words of the reset pulse -/

/-- A write of OUT and the move to the next phase change OUT, PHASE and the trace (R121, R9). -/
theorem goto_writeOut_eq (p : Phase) (v : PinWord) (s : State) :
    goto p (writeOut v s) = { s with out := v, phase := p.code, trace := s.trace ++ [.out v] } := rfl

theorem exec_rLow (s : State) : exec .rLow s = .next (goto .rLowWait (writeOut pinResetWord s)) := rfl

theorem exec_rHigh (s : State) : exec .rHigh s = .next (goto .rHighWait (writeOut pinIdleWord s)) := rfl

/-- Settles O23: R_LOW writes PIN_RESET and R_HIGH writes PIN_IDLE, and a write and a move change nothing else. -/
theorem resetPulseWords : Obligations.ResetPulseWords := by
  intro s
  rw [exec_rLow, exec_rHigh, goto_writeOut_eq, goto_writeOut_eq]
  exact ⟨rfl, rfl⟩

/-! ## The decisions on one sample of INIT_B -/

section InitSample

variable {s : State} {v : PinWord} {vs : List PinWord}

/-- With an answer placed, `In()` uses it up and records it; no register is written (R122, R31). -/
theorem takeIn_of_cons (h : s.ins = v :: vs) :
    takeIn s = { s with ins := vs, trace := s.trace ++ [.inp v] } := by
  simp [takeIn_eq, inAnswer_of_cons h, h]

theorem exec_wInit_of_cons (h : s.ins = v :: vs) :
    exec .wInit s = .next (decideInit v { s with ins := vs, trace := s.trace ++ [.inp v] }) := by
  rw [← takeIn_of_cons h, ← inAnswer_of_cons h]; rfl

theorem exec_sCheck_of_cons (h : s.ins = v :: vs) :
    exec .sCheck s = .next (decideCheck v { s with ins := vs, trace := s.trace ++ [.inp v] }) := by
  rw [← takeIn_of_cons h, ← inAnswer_of_cons h]; rfl

theorem decideInit_of_bit3 (h : v.getLsbD 3 = true) (s : State) : decideInit v s = goto .sFetch s :=
  if_pos ((initReady_eq v).trans h)

theorem decideInit_of_not_bit3 (h : v.getLsbD 3 = false) (s : State) : decideInit v s = raise .initTimeout s :=
  if_neg (Bool.eq_false_iff.1 ((initReady_eq v).trans h))

theorem decideCheck_of_bit3 (h : v.getLsbD 3 = true) (s : State) : decideCheck v s = goto .sFetch s :=
  if_pos ((initReady_eq v).trans h)

theorem decideCheck_of_not_bit3 (h : v.getLsbD 3 = false) (s : State) :
    decideCheck v s = raise .midStreamAbort s :=
  if_neg (Bool.eq_false_iff.1 ((initReady_eq v).trans h))

end InitSample

/-- Settles O25: the sample is taken, and the decision on its bit 3 goes to S_FETCH or raises the phase's failure. -/
theorem initChecksDecideOnOneSample : Obligations.InitChecksDecideOnOneSample := by
  intro s v vs hins r
  rw [exec_wInit_of_cons hins, exec_sCheck_of_cons hins]
  constructor
  · intro hready
    rw [decideInit_of_bit3 hready, decideCheck_of_bit3 hready]
    exact ⟨rfl, rfl⟩
  · intro hlow
    rw [decideInit_of_not_bit3 hlow, decideCheck_of_not_bit3 hlow]
    exact ⟨rfl, rfl⟩

end Sys2Proof.Proofs

namespace Sys2Proof.Proofs

open Machine

/-! ## The shifting step, one equation per branch of R183 -/

section ShiftStep

variable {next : PhaseCode} {count : Bool} {s : State} {b : Byte}

/-- The first half of a bit writes its setup word, whatever phase shifts and whether or not the byte is counted. -/
theorem shiftStep_of_setupHalf (hsh : s.sh = some b) (hhalf : s.half = false) :
    shiftStep next count s = .next { writeOut (pinSetupWord (dataBit b s.bitcnt)) s with half := true } := by
  simp [shiftStep, hsh, hhalf]

/-- The second half of a bit before the eighth writes its clock word and goes on to the next bit. -/
theorem shiftStep_of_clockHalf (hsh : s.sh = some b) (hhalf : s.half = true) (hbit : s.bitcnt ≠ 7#3) :
    shiftStep next count s =
      .next { writeOut (pinClockWord (dataBit b s.bitcnt)) s with half := false, bitcnt := s.bitcnt + 1#3 } := by
  simp [shiftStep, hsh, hhalf, hbit]

/-- The second half of the eighth bit writes its clock word and ends the byte. -/
theorem shiftStep_of_eighthClockHalf (hsh : s.sh = some b) (hhalf : s.half = true) (hbit : s.bitcnt = 7#3) :
    shiftStep next count s =
      endByte next count { writeOut (pinClockWord (dataBit b s.bitcnt)) s with half := false } := by
  simp [shiftStep, hsh, hhalf, hbit]

end ShiftStep

/-- A byte that is not counted ends with BITCNT at 0, in the phase that follows. -/
theorem endByte_uncounted (next : PhaseCode) (s : State) :
    endByte next false s = .next { s with bitcnt := 0#3, phase := next } := rfl

/-- The end of a payload byte adds 1 to IDX. -/
theorem endByte_counted {s : State} {i : Word32} (hidx : s.idx = some i) (next : PhaseCode) :
    endByte next true s = .next { s with bitcnt := 0#3, idx := some (i + 1#32), phase := next } := by
  simp [endByte, hidx]

theorem exec_sShift (s : State) : exec .sShift s = shiftStep Phase.sCheck.code true s := rfl

theorem exec_pFill (s : State) : exec .pFill s = shiftStep Phase.pDeadline.code false s := rfl

theorem exec_fComp (s : State) : exec .fComp s = shiftStep Phase.fIdle.code false s := rfl

/-- Settles O28: the three phases run one shifting step, and each clause is one of its branches; at the eighth bit
S_SHIFT's byte is counted and a filler byte is not. -/
theorem shiftingStep : Obligations.ShiftingStep := by
  intro s b hsh d setup clock low high
  rw [exec_sShift, exec_pFill, exec_fComp]
  refine ⟨fun hhalf => ?setupHalf, fun hhalf hlt => ?clockHalf, fun hhalf hbit => ?eighthClockHalf⟩
  case setupHalf =>
    have hstep (next count) : shiftStep next count s = .next low := shiftStep_of_setupHalf hsh hhalf
    exact ⟨hstep _ _, hstep _ _, hstep _ _⟩
  case clockHalf =>
    have hbit : s.bitcnt ≠ 7#3 := fun h7 => absurd (h7 ▸ hlt) (by decide)
    have hstep (next count) : shiftStep next count s = .next { high with bitcnt := s.bitcnt + 1#3 } :=
      shiftStep_of_clockHalf hsh hhalf hbit
    exact ⟨hstep _ _, hstep _ _, hstep _ _⟩
  case eighthClockHalf =>
    have hstep (next count) : shiftStep next count s = endByte next count high :=
      shiftStep_of_eighthClockHalf hsh hhalf hbit
    rw [hstep, hstep, hstep]
    exact ⟨fun _ hidx => endByte_counted (s := high) hidx _, endByte_uncounted _ high, endByte_uncounted _ high⟩

end Sys2Proof.Proofs

namespace Sys2Proof.Proofs

open Machine

/-! ## The deadline of the poll -/

/-- R204 tests the difference of two counts as integers; the model's test adds on naturals, which cannot wrap. -/
theorem deadlineElapsed_iff_sub {t0 t : Millis} :
    deadlineElapsed t0 t = true ↔ t.toNat - t0.toNat ≥ (100 : Int) := by
  have hsum : deadlineElapsed t0 t = true ↔ t0.toNat + 100 ≤ t.toNat := decide_eq_true_iff
  rw [hsum]
  omega

/-- Within the monotonic contract, `Now()` goes on with its answer (R124). -/
theorem withNow_of_inContract {s : State} (h : nowInContract s = true) (k : Millis → State → Result) :
    withNow s k = k (nowAnswer s) (takeNow s) :=
  if_pos h

/-- With T0 holding a count, P_DEADLINE asks for one count and decides on the two (R204). -/
theorem exec_pDeadline_of_inContract {s : State} {a : Millis} (ht0 : s.t0 = some a) (h : nowInContract s = true) :
    exec .pDeadline s = .next
      (if deadlineElapsed a (nowAnswer s) then raise .doneTimeout (takeNow s) else goto .pSample (takeNow s)) := by
  have hcall : exec .pDeadline s = withNow s fun t s1 =>
      .next (if deadlineElapsed a t then raise .doneTimeout s1 else goto .pSample s1) := by
    simp only [exec, execPDeadline, ht0]
  rw [hcall, withNow_of_inContract h]

/-- Settles O35: the count is taken, and the test on it raises DoneTimeout or goes back to P_SAMPLE. -/
theorem pDeadlineComparesWithT0 : Obligations.PDeadlineComparesWithT0 := by
  intro s a ht0 hcontract r
  rw [exec_pDeadline_of_inContract ht0 hcontract, takeNow_eq]
  constructor
  · intro hlate
    rw [if_pos (deadlineElapsed_iff_sub.2 hlate)]
    rfl
  · intro hearly
    rw [if_neg (mt deadlineElapsed_iff_sub.1 (Int.not_le.2 hearly))]
    rfl

end Sys2Proof.Proofs

namespace Sys2Proof.Proofs

open Machine

/-! ## Encoding and decoding, format by format -/

theorem encode_phase_instr (p : Phase) : encode p.instr = .phase5 p.code := by cases p <;> rfl

theorem wellFormed_phase_instr (p : Phase) : p.instr.wellFormed = true := by cases p <;> rfl

theorem Kind.code_of_ofCode {c : Code3} {k : Kind} (h : Kind.ofCode c = some k) : k.code = c := by
  simpa using List.find?_some h

theorem encode_kind_instr (k : Kind) : encode k.instr = .res3 k.code := by cases k <;> rfl

theorem wellFormed_kind_instr (k : Kind) : k.instr.wellFormed = true := by cases k <;> rfl

@[simp] theorem headerMagic_headerWord (m l : Word32) : headerMagic (headerWord m l) = m :=
  BitVec.extractLsb'_append_eq_left

@[simp] theorem headerLength_headerWord (m l : Word32) : headerLength (headerWord m l) = l :=
  BitVec.extractLsb'_append_eq_right

@[simp] theorem din_pinSetupWord (d : Bool) : lineHigh Config.DIN_BIT (pinSetupWord d) = d := by
  cases d <;> decide

@[simp] theorem din_pinClockWord (d : Bool) : lineHigh Config.DIN_BIT (pinClockWord d) = d := by
  cases d <;> decide

theorem pinClockWord_ne_pinSetupWord (d e : Bool) : pinClockWord d ≠ pinSetupWord e := by
  cases d <;> cases e <;> decide

/-- A byte is the sum of its bits. -/
theorem sum_bits_eq (b : Byte) : BitVec.ofNat 8
    (128 * (b.getLsbD 7).toNat + 64 * (b.getLsbD 6).toNat + 32 * (b.getLsbD 5).toNat + 16 * (b.getLsbD 4).toNat
      + 8 * (b.getLsbD 3).toNat + 4 * (b.getLsbD 2).toNat + 2 * (b.getLsbD 1).toNat + (b.getLsbD 0).toNat) = b := by
  revert b; decide

/-- DIN at the clock words of a byte's sixteen words are its bits, so they give the byte back (R98). -/
@[simp] theorem byteOfWords_shift8Words (b : Byte) : byteOfWords (shift8Words b) = b := by
  simpa [byteOfWords, shift8Words, bitIndexes, dataBit] using sum_bits_eq b

/-! ## Decoding what an instruction is encoded as -/

/-- A call of `Oe` or `Out` with a word the loader writes, and every other call, is read back from its tag and operands
(R103). -/
theorem decodeEvent_evOe {m : PinWord} (h : m = Config.OE_MASK) : decodeEvent 0#3 [m.toNat] = .ok (.evOe m) := by
  subst h; rfl

theorem decodeEvent_evOut {v : PinWord} (h : outWords.contains v = true) :
    decodeEvent 1#3 [v.toNat] = .ok (.evOut v) := by
  have hlt : v.toNat < 32 := v.isLt
  simp [decodeEvent, hlt, List.contains_iff_mem.1 h]

theorem decodeEvent_evWait (us : Word32) : decodeEvent 4#3 [us.toNat] = .ok (.evWait us) := by
  have hlt : us.toNat < 4294967296 := us.isLt
  simp [decodeEvent, hlt]

theorem decodeEvent_evRd {o n : Nat} (h : legalRead o n = true) : decodeEvent 5#3 [o, n] = .ok (.evRd o n) := by
  simp [decodeEvent, h]

theorem decodeEvent_evRet {c : Code3} (h : c.toNat ≤ 5) : decodeEvent 6#3 [c.toNat] = .ok (.evRet c) := by
  simp [decodeEvent, h]

/-- Settles O3: an instruction of each format is read back from its word; a phase, a result and an event by its code, a
header by its two fields, a byte by the DIN bits of its sixteen words. -/
theorem decodeOfEncodeIsTheInstruction : Obligations.DecodeOfEncodeIsTheInstruction := by
  intro i hwf
  cases i with
  | idle | vMagic | vLen | dOe | rLow | rLowWait | rHigh | rHighWait | wInit | sFetch | sShift | sCheck | pAnchor
  | pSample | pFill | pDeadline | fComp | fIdle | xRet => rfl
  | shift8 b => simp [encode, decode]
  | imageHeader l | hdrBadMagic m l | hdrTooLarge l => simp_all [encode, decode, Instr.wellFormed]
  | pinReset | pinIdle | pinOe => rfl
  | pinSetup d => simp [encode, decode]
  | pinClock d => simp [encode, decode, pinClockWord_ne_pinSetupWord]
  | inInitReady v | inInitNotReady v | inDone v | inNotDone v => simp_all [encode, decode, Instr.wellFormed]
  | resOk | resBadMagic | resImageTooLarge | resInitTimeout | resMidStreamAbort | resDoneTimeout => rfl
  | evOe m => exact decodeEvent_evOe (beq_iff_eq.1 hwf)
  | evOut v => exact decodeEvent_evOut hwf
  | evRd o n => exact decodeEvent_evRd hwf
  | evRet c => exact decodeEvent_evRet (of_decide_eq_true hwf)
  | evWait us => exact decodeEvent_evWait us
  | evIn | evNow | evLoad => rfl

/-! ## The word of what a word decodes to -/

theorem decode_phase5_inv {w : PhaseCode} {i : Instr} (h : decode (.phase5 w) = .ok i) :
    ∃ p : Phase, i = p.instr ∧ w = p.code := by
  cases hp : Phase.ofCode w with
  | none => simp [decode, hp] at h
  | some p => exact ⟨p, by simpa [decode, hp] using h.symm, (Phase.code_of_ofCode hp).symm⟩

theorem decode_res3_inv {c : Code3} {i : Instr} (h : decode (.res3 c) = .ok i) :
    ∃ k : Kind, i = k.instr ∧ c = k.code := by
  cases hk : Kind.ofCode c with
  | none => simp [decode, hk] at h
  | some k => exact ⟨k, by simpa [decode, hk] using h.symm, (Kind.code_of_ofCode hk).symm⟩

/-- What a word of a format decodes to is encoded as that word and is well formed. -/
def Faithful (c : Code) : Prop := ∀ i, decode c = .ok i → encode i = c ∧ i.wellFormed = true

theorem faithful_phase5 (w : PhaseCode) : Faithful (.phase5 w) := by
  intro i h
  obtain ⟨p, rfl, rfl⟩ := decode_phase5_inv h
  exact ⟨encode_phase_instr p, wellFormed_phase_instr p⟩

theorem faithful_res3 (c : Code3) : Faithful (.res3 c) := by
  intro i h
  obtain ⟨k, rfl, rfl⟩ := decode_res3_inv h
  exact ⟨encode_kind_instr k, wellFormed_kind_instr k⟩

/-- The three rows of a header keep both fields, the magic where it is not the one required. -/
theorem faithful_hdr64 (h : BitVec 64) : Faithful (.hdr64 h) := by
  intro i hd
  by_cases hm : headerMagic h = Config.MAGIC
  · have hh : headerWord Config.MAGIC (headerLength h) = h := hm ▸ headerWord_fields h
    by_cases hl : (headerLength h).toNat ≤ Config.MAX_LEN.toNat
    · obtain rfl : .imageHeader (headerLength h) = i := by simpa [decode_hdr64_of_valid hm hl] using hd
      exact ⟨congrArg Code.hdr64 hh, lengthOk_iff.2 hl⟩
    · obtain rfl : .hdrTooLarge (headerLength h) = i := by
        simpa [decode_hdr64_of_length_gt hm (Nat.lt_of_not_le hl)] using hd
      exact ⟨congrArg Code.hdr64 hh, by simpa [Instr.wellFormed, Bool.eq_false_iff] using hl⟩
  · obtain rfl : .hdrBadMagic (headerMagic h) (headerLength h) = i := by
      simpa [decode_hdr64_of_magic_ne hm] using hd
    exact ⟨congrArg Code.hdr64 (headerWord_fields h), by simpa [Instr.wellFormed, Bool.eq_false_iff] using hm⟩

theorem faithful_outLevel (w : PinWord) : Faithful (.outLevel w) := by
  intro i h
  simp only [decode] at h
  split_ifs at h with hreset hidle <;> cases h
  · exact ⟨congrArg Code.outLevel hreset.symm, rfl⟩
  · exact ⟨congrArg Code.outLevel hidle.symm, rfl⟩

theorem faithful_outBit (w : PinWord) : Faithful (.outBit w) := by
  intro i h
  simp only [decode] at h
  split_ifs at h with hsetup hclock <;> cases h
  · exact ⟨congrArg Code.outBit hsetup.symm, rfl⟩
  · exact ⟨congrArg Code.outBit hclock.symm, rfl⟩

theorem faithful_oe (w : PinWord) : Faithful (.oe w) := by
  intro i h
  simp only [decode] at h
  split_ifs at h with hmask
  cases h
  exact ⟨congrArg Code.oe hmask.symm, rfl⟩

theorem faithful_inInit (v : PinWord) : Faithful (.inInit v) := by
  intro i h
  simp only [decode] at h
  split_ifs at h with hready <;> cases h <;> simp [encode, Instr.wellFormed, hready]

theorem faithful_inDone (v : PinWord) : Faithful (.inDone v) := by
  intro i h
  simp only [decode] at h
  split_ifs at h with hdone <;> cases h <;> simp [encode, Instr.wellFormed, hdone]

theorem faithful_outWords (ws : List PinWord) : Faithful (.outWords ws) := by
  intro i h
  simp only [decode] at h
  split_ifs at h with hws
  cases h
  exact ⟨congrArg Code.outWords hws.symm, rfl⟩

theorem tag_eq_ofNat {tag : Code3} {n : Nat} (h : tag.toNat = n) : tag = BitVec.ofNat 3 n :=
  BitVec.eq_of_toNat_eq (by subst h; simp)

/-- An operand within its width is the number of the word it is read as. -/
theorem toNat_ofNat_of_lt {n x : Nat} (h : x < 2 ^ n) : (BitVec.ofNat n x).toNat = x :=
  (BitVec.toNat_ofNat x n).trans (Nat.mod_eq_of_lt h)

/-- The tag fixes the row, and each operand is within its width and among the values the row admits. -/
theorem faithful_evt3 (tag : Code3) (operands : List Nat) : Faithful (.evt3 tag operands) := by
  intro i h
  simp only [decode, decodeEvent] at h
  split at h
  case h_1 m hn =>
    split_ifs at h with hlt hmask
    cases h
    exact ⟨by rw [encode, toNat_ofNat_of_lt hlt, tag_eq_ofNat hn], beq_iff_eq.2 hmask⟩
  case h_2 v hn =>
    split_ifs at h with hlt hword
    cases h
    exact ⟨by rw [encode, toNat_ofNat_of_lt hlt, tag_eq_ofNat hn], hword⟩
  case h_3 hn => cases h; exact ⟨by rw [encode, tag_eq_ofNat hn], rfl⟩
  case h_4 hn => cases h; exact ⟨by rw [encode, tag_eq_ofNat hn], rfl⟩
  case h_5 n hn =>
    split_ifs at h with hlt
    cases h
    exact ⟨by rw [encode, toNat_ofNat_of_lt hlt, tag_eq_ofNat hn], rfl⟩
  case h_6 o n hn =>
    split_ifs at h with hread
    cases h
    exact ⟨by rw [encode, tag_eq_ofNat hn], hread⟩
  case h_7 c hn =>
    split_ifs at h with hle
    cases h
    have hc : (BitVec.ofNat 3 c).toNat = c := toNat_ofNat_of_lt (by omega)
    exact ⟨by rw [encode, hc, tag_eq_ofNat hn], by simp only [Instr.wellFormed, hc, hle, decide_true]⟩
  case h_8 hn => cases h; exact ⟨by rw [encode, tag_eq_ofNat hn], rfl⟩
  case h_9 => cases h

/-- Settles O4: format by format, the word is rebuilt from the operands it was read as. -/
theorem decodingLosesNoBit : Obligations.DecodingLosesNoBit := by
  intro c
  cases c with
  | phase5 w => exact faithful_phase5 w
  | hdr64 h => exact faithful_hdr64 h
  | outLevel w => exact faithful_outLevel w
  | outBit w => exact faithful_outBit w
  | oe w => exact faithful_oe w
  | inInit v => exact faithful_inInit v
  | inDone v => exact faithful_inDone v
  | res3 c => exact faithful_res3 c
  | evt3 tag operands => exact faithful_evt3 tag operands
  | outWords ws => exact faithful_outWords ws

/-! ## The header's fields as bytes -/

/-- BE32 is the concatenation of its four bytes. -/
theorem be32_eq_append (b0 b1 b2 b3 : Byte) : be32 b0 b1 b2 b3 = b0 ++ b1 ++ b2 ++ b3 := by
  ext i hi
  simp only [be32, BitVec.getElem_or, BitVec.getElem_shiftLeft, BitVec.getElem_setWidth]
  grind

/-- Appending a word below another is a sum. -/
theorem toNat_append_eq_add {m n : Nat} (x : BitVec m) (y : BitVec n) :
    (x ++ y).toNat = x.toNat * 2 ^ n + y.toNat := by
  rw [BitVec.toNat_append, ← Nat.shiftLeft_add_eq_or_of_lt y.isLt, Nat.shiftLeft_eq]

theorem be32_toNat (b0 b1 b2 b3 : Byte) : (be32 b0 b1 b2 b3).toNat =
    b0.toNat * 2 ^ 24 + b1.toNat * 2 ^ 16 + b2.toNat * 2 ^ 8 + b3.toNat := by
  rw [be32_eq_append]
  simp only [toNat_append_eq_add]
  omega

/-- The eight bytes of a header, in image order, are the header word of their BE32 halves (R67, R91). -/
theorem append_bytes_eq_headerWord (b0 b1 b2 b3 b4 b5 b6 b7 : Byte) :
    b0 ++ b1 ++ b2 ++ b3 ++ b4 ++ b5 ++ b6 ++ b7 = headerWord (be32 b0 b1 b2 b3) (be32 b4 b5 b6 b7) := by
  apply BitVec.eq_of_toNat_eq
  simp only [headerWord, toNat_append_eq_add, be32_toNat]
  omega

/-- Settles O6: BE32 is the sum of its bytes by place value, and a header's two fields are its BE32 halves. -/
theorem headerFieldsAreBigEndian : Obligations.HeaderFieldsAreBigEndian := by
  refine ⟨be32_toNat, fun b0 b1 b2 b3 b4 b5 b6 b7 => ?_⟩
  rw [append_bytes_eq_headerWord]
  exact ⟨headerMagic_headerWord _ _, headerLength_headerWord _ _⟩

end Sys2Proof.Proofs

namespace Sys2Proof.Proofs

open Machine Safety

/-! ## What the operation of a phase can do -/

/-- The clock word of the bit being sent is written and CCLK's half is over (R183). -/
def clocked (b : Byte) (s : State) : State :=
  { writeOut (pinClockWord (dataBit b s.bitcnt)) s with half := false }

/-- Everything that the operation of a phase can do where it answers a next state, with the test it passed (R99). -/
inductive Move : Phase → State → State → Prop
  | rest {s} (hhost : s.host.head? ≠ some .load) : Move .idle s s
  | load {s} (hhost : s.host.head? = some .load) : Move .idle s (startSession s)
  | magicRight {s} (hmagic : be32OfBytes (imageBytes s 0 4) = Config.MAGIC) :
      Move .vMagic s (goto .vLen (emit (.rd 0 (imageBytes s 0 4)) s))
  | magicWrong {s} : Move .vMagic s (raise .badMagic (emit (.rd 0 (imageBytes s 0 4)) s))
  | lengthFits {s} (hlen : (be32OfBytes (imageBytes s 4 4)).toNat ≤ Config.MAX_LEN.toNat) :
      Move .vLen s (goto .dOe
        { emit (.rd 4 (imageBytes s 4 4)) s with len := some (be32OfBytes (imageBytes s 4 4)) })
  | lengthTooLarge {s} : Move .vLen s (raise .imageTooLarge (emit (.rd 4 (imageBytes s 4 4)) s))
  | enable {s} : Move .dOe s (goto .rLow (writeOe Config.OE_MASK s))
  | pulseLow {s} : Move .rLow s (goto .rLowWait (writeOut pinResetWord s))
  | waitLow {s} : Move .rLowWait s (goto .rHigh (wait Config.T_PROGRAM_US s))
  | pulseHigh {s} : Move .rHigh s (goto .rHighWait (writeOut pinIdleWord s))
  | waitHigh {s} : Move .rHighWait s (goto .wInit (wait Config.T_INIT_US s))
  | initReady {s} : Move .wInit s (goto .sFetch (takeIn s))
  | initTimeout {s} : Move .wInit s (raise .initTimeout (takeIn s))
  | payloadSent {s i} (hidx : s.idx = some i) (hlen : s.len = some i) : Move .sFetch s (goto .pAnchor s)
  | fetch {s i l} (hidx : s.idx = some i) (hlen : s.len = some l) (hne : i ≠ l) :
      Move .sFetch s (goto .sShift
        { emit (.rd (payloadOffset i) (imageBytes s (payloadOffset i) 1)) s with
          sh := some ((imageBytes s (payloadOffset i) 1).headD 0#8) })
  | checkReady {s} : Move .sCheck s (goto .sFetch (takeIn s))
  | checkAbort {s} : Move .sCheck s (raise .midStreamAbort (takeIn s))
  | anchor {s} : Move .pAnchor s (goto .pSample { takeNow s with t0 := some (nowAnswer s) })
  | sampleDone {s} : Move .pSample s (goto .fComp { takeIn s with sh := some Config.FILLER })
  | sampleNotDone {s} : Move .pSample s (goto .pFill { takeIn s with sh := some Config.FILLER })
  | beforeDeadline {s} (hnow : nowInContract s = true) : Move .pDeadline s (goto .pSample (takeNow s))
  | deadline {s} : Move .pDeadline s (raise .doneTimeout (takeNow s))
  | setup {p s b} (hp : p ∈ shifting) (hsh : s.sh = some b) (hhalf : s.half = false) :
      Move p s { writeOut (pinSetupWord (dataBit b s.bitcnt)) s with half := true }
  | clock {p s b} (hp : p ∈ shifting) (hsh : s.sh = some b) (hhalf : s.half = true) (hbit : s.bitcnt ≠ 7#3) :
      Move p s { clocked b s with bitcnt := s.bitcnt + 1#3 }
  | endPayloadByte {s b i} (hsh : s.sh = some b) (hhalf : s.half = true) (hbit : s.bitcnt = 7#3)
      (hidx : s.idx = some i) :
      Move .sShift s (goto .sCheck { clocked b s with bitcnt := 0#3, idx := some (i + 1#32) })
  | endPollFiller {s b} (hsh : s.sh = some b) (hhalf : s.half = true) (hbit : s.bitcnt = 7#3) :
      Move .pFill s (goto .pDeadline { clocked b s with bitcnt := 0#3 })
  | endLastFiller {s b} (hsh : s.sh = some b) (hhalf : s.half = true) (hbit : s.bitcnt = 7#3) :
      Move .fComp s (goto .fIdle { clocked b s with bitcnt := 0#3 })
  | linesIdle {s} : Move .fIdle s (finish .ok (writeOut pinIdleWord s))
  | handOver {s c} (hresult : s.result = some c) : Move .xRet s (leave c s)

section MoveOfExec

variable {s t : State}

theorem move_of_execIdle (h : execIdle s = .next t) : Move .idle s t := by
  unfold execIdle at h
  split at h <;> cases h
  · exact .load ‹_›
  · exact .rest ‹_›

theorem move_of_execVMagic (h : execVMagic s = .next t) : Move .vMagic s t := by
  obtain ⟨-, h⟩ := withRead_next h
  unfold decideMagic at h
  split at h <;> cases h
  · exact .magicRight (magicOk_iff.1 ‹_›)
  · exact .magicWrong

theorem move_of_execVLen (h : execVLen s = .next t) : Move .vLen s t := by
  obtain ⟨-, h⟩ := withRead_next h
  unfold decideLen at h
  split at h <;> cases h
  · exact .lengthFits (lengthOk_iff.1 ‹_›)
  · exact .lengthTooLarge

theorem move_of_execWInit (h : execWInit s = .next t) : Move .wInit s t := by
  unfold execWInit decideInit at h
  split at h <;> cases h
  · exact .initReady
  · exact .initTimeout

theorem move_of_execSFetch (h : execSFetch s = .next t) : Move .sFetch s t := by
  unfold execSFetch at h
  split at h
  case h_1 i l hidx hlen =>
    split_ifs at h with heq
    · cases h
      exact .payloadSent hidx (heq ▸ hlen)
    · obtain ⟨-, h⟩ := withRead_next h
      cases h
      exact .fetch hidx hlen heq
  all_goals cases h

theorem move_of_execSCheck (h : execSCheck s = .next t) : Move .sCheck s t := by
  unfold execSCheck decideCheck at h
  split at h <;> cases h
  · exact .checkReady
  · exact .checkAbort

theorem move_of_execPAnchor (h : execPAnchor s = .next t) : Move .pAnchor s t := by
  obtain ⟨-, h⟩ := withNow_next h
  cases h
  exact .anchor

theorem move_of_execPSample (h : execPSample s = .next t) : Move .pSample s t := by
  unfold execPSample decideDone at h
  split at h <;> cases h
  · exact .sampleDone
  · exact .sampleNotDone

theorem move_of_execPDeadline (h : execPDeadline s = .next t) : Move .pDeadline s t := by
  unfold execPDeadline at h
  split at h
  · cases h
  · obtain ⟨hnow, h⟩ := withNow_next h
    split at h <;> cases h
    · exact .deadline
    · exact .beforeDeadline hnow

theorem move_of_execXRet (h : execXRet s = .next t) : Move .xRet s t := by
  unfold execXRet at h
  split at h <;> cases h
  exact .handOver ‹_›

theorem move_of_execSShift (h : execSShift s = .next t) : Move .sShift s t := by
  obtain ⟨b, hsh, ⟨hhalf, rfl⟩ | ⟨hhalf, hbit, rfl⟩ | ⟨-, -, hcount, -⟩ | ⟨hhalf, hbit, -, i, hidx, rfl⟩⟩ :=
    shiftStep_cases h
  · exact .setup (by decide) hsh hhalf
  · exact .clock (by decide) hsh hhalf hbit
  · cases hcount
  · exact .endPayloadByte hsh hhalf hbit hidx

/-- A filler byte is shifted as a payload byte is, and not counted. -/
theorem move_of_fillerStep {p q : Phase} (hp : p ∈ shifting)
    (hend : ∀ {b}, s.sh = some b → s.half = true → s.bitcnt = 7#3 →
      Move p s (goto q { clocked b s with bitcnt := 0#3 }))
    (h : shiftStep q.code false s = .next t) : Move p s t := by
  obtain ⟨b, hsh, ⟨hhalf, rfl⟩ | ⟨hhalf, hbit, rfl⟩ | ⟨hhalf, hbit, -, rfl⟩ | ⟨-, -, hcount, -⟩⟩ :=
    shiftStep_cases h
  · exact .setup hp hsh hhalf
  · exact .clock hp hsh hhalf hbit
  · exact hend hsh hhalf hbit
  · cases hcount

/-- An operation that answers a next state made one of its phase's moves. -/
theorem move_of_exec {p : Phase} (h : exec p.instr s = .next t) : Move p s t := by
  cases p with
  | idle => exact move_of_execIdle h
  | vMagic => exact move_of_execVMagic h
  | vLen => exact move_of_execVLen h
  | dOe => cases h; exact .enable
  | rLow => cases h; exact .pulseLow
  | rLowWait => cases h; exact .waitLow
  | rHigh => cases h; exact .pulseHigh
  | rHighWait => cases h; exact .waitHigh
  | wInit => exact move_of_execWInit h
  | sFetch => exact move_of_execSFetch h
  | sShift => exact move_of_execSShift h
  | sCheck => exact move_of_execSCheck h
  | pAnchor => exact move_of_execPAnchor h
  | pSample => exact move_of_execPSample h
  | pFill => exact move_of_fillerStep (by decide) .endPollFiller h
  | pDeadline => exact move_of_execPDeadline h
  | fComp => exact move_of_fillerStep (by decide) .endLastFiller h
  | fIdle => cases h; exact .linesIdle
  | xRet => exact move_of_execXRet h

/-- A step that answers a next state is a block reset or the present phase's operation. -/
theorem step_next_cases (h : step s = .next t) :
    (s.host.head? = some .blockReset ∧ t = popHost (blockReset s)) ∨
    ∃ p u, s.phase = Phase.code p ∧ s.host.head? ≠ some .blockReset ∧ exec p.instr s = .next u ∧
      t = popHost u := by
  rcases step_cases s with ⟨hhost, hs⟩ | ⟨-, -, hs⟩ | ⟨-, hs⟩ | ⟨p, hp, hhost, -, hs⟩ <;> rw [hs] at h
  · cases h; exact .inl ⟨hhost, rfl⟩
  · cases h
  · cases h
  · cases hu : exec p.instr s <;> rw [hu] at h <;> cases h
    exact .inr ⟨p, _, hp, hhost, hu, rfl⟩

end MoveOfExec

end Sys2Proof.Proofs

namespace Sys2Proof.Proofs

open Machine Safety

/-! ## The invariant, phase by phase -/

/-- The bit counters as they stand outside the shifting phases (R41 a). -/
def CountersZero (s : State) : Prop := s.bitcnt = 0#3 ∧ s.half = false

/-- Once LEN holds a value, it is at most MAX_LEN and IDX has not run past it (R41 b). -/
def LenBound (s : State) : Prop :=
  ∀ l, s.len = some l → l.toNat ≤ Config.MAX_LEN.toNat ∧ ∃ i, s.idx = some i ∧ i.toNat ≤ l.toNat

/-- T0 holds a count of this load. -/
def Anchored (s : State) : Prop := ∃ a l, s.t0 = some a ∧ s.lastNow = some l ∧ a.toNat ≤ l.toNat

/-- The whole payload has been sent. -/
def AllSent (s : State) : Prop := s.len.isSome = true ∧ s.idx = s.len

/-- What the session registers hold in a phase, besides `LenBound` and, outside the shifting phases, `CountersZero`. -/
def SessionAt (s : State) : Phase → Prop
  | .idle => True
  | .vMagic | .vLen => s.idx = some 0#32
  | .dOe | .rLow | .rLowWait | .rHigh | .rHighWait | .wInit => s.idx = some 0#32 ∧ s.len.isSome = true
  | .sFetch => s.len.isSome = true
  | .sShift => s.sh.isSome = true ∧ s.len.isSome = true ∧ ∃ i l, s.idx = some i ∧ s.len = some l ∧ i.toNat < l.toNat
  | .sCheck => s.sh.isSome = true ∧ s.len.isSome = true ∧ ∃ i, s.idx = some i ∧ 1 ≤ i.toNat
  | .pAnchor => AllSent s
  | .pSample => AllSent s ∧ Anchored s
  | .pFill | .pDeadline => AllSent s ∧ Anchored s ∧ s.sh = some Config.FILLER
  | .fComp | .fIdle => AllSent s ∧ s.sh = some Config.FILLER
  | .xRet => ∃ k : Kind, s.result = some k.code

/-- OE and OUT are as after reset, or OE is the word the loader writes. -/
def OeWord (s : State) : Prop := (s.oe = 0x00#5 ∧ s.out = 0x00#5) ∨ s.oe = Config.OE_MASK

/-- What the lines are left at after the reset pulse, by the result in RESULT (R239). -/
def LeftAt (s : State) : Kind → Prop
  | .ok | .initTimeout => s.oe = Config.OE_MASK ∧ s.out = pinIdleWord
  | .midStreamAbort => s.oe = Config.OE_MASK ∧ ∃ b, s.sh = some b ∧ s.out = pinClockWord (b.getLsbD 0)
  | .doneTimeout => s.oe = Config.OE_MASK ∧ s.out = pinClockWord true
  | .badMagic | .imageTooLarge => True

/-- What OE and OUT hold in a phase, besides that OUT holds one of the five words. -/
def PinsAt (s : State) : Phase → Prop
  | .idle | .vMagic | .vLen | .dOe => OeWord s
  | .rLow => s.oe = Config.OE_MASK
  | .rLowWait | .rHigh => s.oe = Config.OE_MASK ∧ s.out = pinResetWord
  | .rHighWait | .wInit => s.oe = Config.OE_MASK ∧ s.out = pinIdleWord
  | .sFetch | .pAnchor | .pSample => s.oe = Config.OE_MASK ∧ s.out.getLsbD 4 = true
  | .sShift | .pFill | .fComp => s.oe = Config.OE_MASK ∧ s.out.getLsbD 4 = true ∧
      (s.half = true → ∃ b, s.sh = some b ∧ s.out = pinSetupWord (dataBit b s.bitcnt))
  | .sCheck => s.oe = Config.OE_MASK ∧ s.out.getLsbD 4 = true ∧ ∃ b, s.sh = some b ∧ s.out = pinClockWord (b.getLsbD 0)
  | .pDeadline | .fIdle => s.oe = Config.OE_MASK ∧ s.out = pinClockWord true
  | .xRet => OeWord s ∧ ∀ k : Kind, s.result = some k.code → LeftAt s k

theorem mem_shifting_iff {p : Phase} : p ∈ shifting ↔ p = .sShift ∨ p = .pFill ∨ p = .fComp := by simp [shifting]

@[simp] theorem pinIdleWord_bit4 : pinIdleWord[4] = true := rfl

@[simp] theorem pinClockWord_bit4 (d : Bool) : (pinClockWord d)[4] = true := by cases d <;> decide

@[simp] theorem pinSetupWord_bit4 (d : Bool) : (pinSetupWord d)[4] = true := by cases d <;> decide

theorem pinResetWord_mem : pinResetWord ∈ outWords := by decide

theorem pinIdleWord_mem : pinIdleWord ∈ outWords := by decide

@[simp] theorem pinClockWord_mem (d : Bool) : pinClockWord d ∈ outWords := by cases d <;> decide

@[simp] theorem pinSetupWord_mem (d : Bool) : pinSetupWord d ∈ outWords := by cases d <;> decide

section Table

variable {s : State} {p : Phase}

theorem leftAt_iff (k : Kind) : LeftAt s k ↔
    (k = .ok → s.oe = Config.OE_MASK ∧ s.out = pinIdleWord) ∧
    (k = .initTimeout → s.oe = Config.OE_MASK ∧ s.out = pinIdleWord) ∧
    (k = .midStreamAbort → s.oe = Config.OE_MASK ∧ ∃ b, s.sh = some b ∧ s.out = pinClockWord (b.getLsbD 0)) ∧
    (k = .doneTimeout → s.oe = Config.OE_MASK ∧ s.out = pinClockWord true) := by
  cases k <;> simp [LeftAt]

/-- A clause about some phases is one about the present phase, where it is among them. -/
theorem clause_of_mem {P : Prop} {ps : List Phase} (hp : s.phase = p.code) (h : p ∈ ps → P) :
    inPhase s ps = true → P := by
  rw [inPhase_of_phase hp]
  exact fun hmem => h (of_decide_eq_true hmem)

/-- The clauses of `SessionInv` are those of the present phase's row. -/
theorem sessionInv_iff (hp : s.phase = p.code) :
    SessionInv s ↔ (p ∉ shifting → CountersZero s) ∧ LenBound s ∧ SessionAt s p := by
  constructor
  · rintro ⟨hcounters, hbound, hzero, hheld, hbelow, hcounted, hatLen, hsh, hfiller, hanchored, hresult⟩
    simp only [inPhase_of_phase hp] at *
    refine ⟨fun hshift => hcounters (decide_eq_false hshift), hbound, ?_⟩
    cases p with
    | idle => trivial
    | vMagic | vLen => exact hzero (by decide)
    | dOe | rLow | rLowWait | rHigh | rHighWait | wInit => exact ⟨hzero (by decide), hheld (by decide)⟩
    | sFetch => exact hheld (by decide)
    | sShift => exact ⟨hsh (by decide), hheld (by decide), hbelow (by decide)⟩
    | sCheck => exact ⟨hsh (by decide), hheld (by decide), hcounted (by decide)⟩
    | pAnchor => exact ⟨hheld (by decide), hatLen (by decide)⟩
    | pSample => exact ⟨⟨hheld (by decide), hatLen (by decide)⟩, hanchored (by decide)⟩
    | pFill | pDeadline =>
      exact ⟨⟨hheld (by decide), hatLen (by decide)⟩, hanchored (by decide), hfiller (by decide)⟩
    | fComp | fIdle => exact ⟨⟨hheld (by decide), hatLen (by decide)⟩, hfiller (by decide)⟩
    | xRet => exact hresult (by decide)
  · rintro ⟨hcounters, hbound, hat⟩
    constructor
    case counters =>
      rw [inPhase_of_phase hp]
      exact fun hshift => hcounters (of_decide_eq_false hshift)
    case lenBound => exact hbound
    all_goals
      refine clause_of_mem hp fun hmem => ?_
      fin_cases hmem <;> simp_all [SessionAt, AllSent, Anchored]

/-- The clauses of `PinInv` are those of the present phase's row. -/
theorem pinInv_iff (hp : s.phase = p.code) : PinInv s ↔ s.out ∈ outWords ∧ PinsAt s p := by
  constructor
  · rintro ⟨hoe, hdriving, hword, hlow, hidle, hhigh, hdin, hbyte, hfiller, hreturn⟩
    simp only [inPhase_of_phase hp, programB_eq] at *
    refine ⟨hword, ?_⟩
    cases p with
    | idle | vMagic | vLen | dOe => exact hoe
    | rLow => exact hdriving (by decide)
    | rLowWait | rHigh => exact ⟨hdriving (by decide), hlow (by decide)⟩
    | rHighWait | wInit => exact ⟨hdriving (by decide), hidle (by decide)⟩
    | sFetch | pAnchor | pSample => exact ⟨hdriving (by decide), hhigh (by decide)⟩
    | sShift | pFill | fComp => exact ⟨hdriving (by decide), hhigh (by decide), hdin (by decide)⟩
    | sCheck => exact ⟨hdriving (by decide), hhigh (by decide), hbyte (by decide)⟩
    | pDeadline | fIdle => exact ⟨hdriving (by decide), hfiller (by decide)⟩
    | xRet => exact ⟨hoe, fun k hk => (leftAt_iff k).2 (hreturn (by decide) k hk)⟩
  · rintro ⟨hword, hat⟩
    constructor
    case oeWord => cases p <;> simp_all [PinsAt, OeWord]
    case outWord => exact hword
    case atReturn =>
      refine clause_of_mem hp fun hmem => ?_
      fin_cases hmem
      exact fun k hk => (leftAt_iff k).1 (hat.2 k hk)
    all_goals
      refine clause_of_mem hp fun hmem => ?_
      fin_cases hmem <;> simp_all [PinsAt, programB_eq]

end Table

end Sys2Proof.Proofs

namespace Sys2Proof.Proofs

open Machine Safety

/-! ## Every step keeps the invariant -/

/-- A payload byte can be counted: IDX does not wrap. -/
theorem toNat_succ_of_lt {i l : Word32} (hil : i.toNat < l.toNat) : (i + 1#32).toNat = i.toNat + 1 :=
  BitVec.toNat_add_of_lt (Nat.lt_of_le_of_lt hil l.isLt)

section MoveKeeps

variable {s u : State} {p : Phase}

/-- A result is produced with the session registers as they stand. -/
theorem sessionInv_finish (k : Kind) (hcounters : CountersZero s) (hbound : LenBound s) :
    SessionInv (finish k s) :=
  (sessionInv_iff (finish_phase k s)).2 ⟨fun _ => hcounters, hbound, k, rfl⟩

/-- A result is produced with the lines as that result leaves them. -/
theorem pinInv_finish {k : Kind} (hword : s.out ∈ outWords) (hoe : OeWord s) (hleft : LeftAt s k) :
    PinInv (finish k s) := by
  refine (pinInv_iff (finish_phase k s)).2 ⟨hword, hoe, fun j hj => ?_⟩
  obtain rfl : k = j := Kind.code_inj (Option.some.inj hj)
  cases k <;> exact hleft

/-- Each move leaves the session registers as the next phase reads them. -/
theorem sessionInv_of_move (hp : s.phase = p.code) (h : SessionInv s) (hm : Move p s u) : SessionInv u := by
  obtain ⟨hcounters, hbound, hat⟩ := (sessionInv_iff hp).1 h
  cases hm with
  | rest => exact h
  | load => exact (sessionInv_iff (startSession_phase _)).2 ⟨fun _ => ⟨rfl, rfl⟩, nofun, rfl⟩
  | magicRight | enable | pulseLow | waitLow | pulseHigh | waitHigh =>
    exact (sessionInv_iff (goto_phase _ _)).2 ⟨fun _ => hcounters (by decide), hbound, hat⟩
  | magicWrong | lengthTooLarge | linesIdle => exact sessionInv_finish _ (hcounters (by decide)) hbound
  | lengthFits hlen =>
    refine (sessionInv_iff (goto_phase _ _)).2 ⟨fun _ => hcounters (by decide), fun l hl => ?_, hat, rfl⟩
    cases hl
    exact ⟨hlen, 0#32, hat, Nat.zero_le _⟩
  | initReady =>
    rw [takeIn_eq]
    exact (sessionInv_iff (goto_phase _ _)).2 ⟨fun _ => hcounters (by decide), hbound, hat.2⟩
  | initTimeout | checkAbort =>
    rw [takeIn_eq]
    exact sessionInv_finish _ (hcounters (by decide)) hbound
  | payloadSent hidx hlen =>
    exact (sessionInv_iff (goto_phase _ _)).2 ⟨fun _ => hcounters (by decide), hbound, hat, hidx.trans hlen.symm⟩
  | @fetch _ i l hidx hlen hne =>
    have hlt : i.toNat < l.toNat := by
      obtain ⟨-, j, hj, hle⟩ := hbound l hlen
      obtain rfl : i = j := Option.some.inj (hidx.symm.trans hj)
      exact Nat.lt_of_le_of_ne hle fun h => hne (BitVec.eq_of_toNat_eq h)
    exact (sessionInv_iff (goto_phase _ _)).2
      ⟨absurd (by decide), hbound, rfl, hat, i, l, hidx, hlen, hlt⟩
  | checkReady =>
    rw [takeIn_eq]
    exact (sessionInv_iff (goto_phase _ _)).2 ⟨fun _ => hcounters (by decide), hbound, hat.2.1⟩
  | anchor =>
    rw [takeNow_eq]
    exact (sessionInv_iff (goto_phase _ _)).2
      ⟨fun _ => hcounters (by decide), hbound, hat, _, _, rfl, rfl, Nat.le_refl _⟩
  | sampleDone =>
    rw [takeIn_eq]
    exact (sessionInv_iff (goto_phase _ _)).2 ⟨absurd (by decide), hbound, hat.1, rfl⟩
  | sampleNotDone =>
    rw [takeIn_eq]
    exact (sessionInv_iff (goto_phase _ _)).2 ⟨absurd (by decide), hbound, hat.1, hat.2, rfl⟩
  | beforeDeadline hnow =>
    rw [takeNow_eq]
    obtain ⟨hsent, ⟨a, l, ha, hl, hle⟩, -⟩ := hat
    exact (sessionInv_iff (goto_phase _ _)).2
      ⟨fun _ => hcounters (by decide), hbound, hsent, a, _, ha, rfl, hle.trans (le_nowAnswer hnow hl)⟩
  | deadline =>
    rw [takeNow_eq]
    exact sessionInv_finish _ (hcounters (by decide)) hbound
  | setup hshift | clock hshift =>
    refine (sessionInv_iff (p := p) ?_).2 ⟨absurd hshift, hbound, hat⟩
    exact hp
  | @endPayloadByte _ b i hsh hhalf hbit hidx =>
    obtain ⟨hsome, hheld, j, l, hj, hl, hlt⟩ := hat
    obtain rfl : i = j := Option.some.inj (hidx.symm.trans hj)
    have hsucc := toNat_succ_of_lt hlt
    refine (sessionInv_iff (goto_phase _ _)).2
      ⟨fun _ => ⟨rfl, rfl⟩, fun k hk => ?_, hsome, hheld, i + 1#32, rfl, by omega⟩
    obtain rfl : l = k := Option.some.inj (hl.symm.trans hk)
    exact ⟨(hbound l hl).1, i + 1#32, rfl, by omega⟩
  | endPollFiller | endLastFiller => exact (sessionInv_iff (goto_phase _ _)).2 ⟨fun _ => ⟨rfl, rfl⟩, hbound, hat⟩
  | handOver => exact (sessionInv_iff (leave_phase _ _)).2 ⟨fun _ => hcounters (by decide), hbound, trivial⟩

/-- The shifting phases are among those in which the lines are driven. -/
theorem oe_of_shifting (hp : s.phase = p.code) (h : PinInv s) (hshift : p ∈ shifting) : s.oe = Config.OE_MASK := by
  refine h.oeDriving ?_
  rw [inPhase_of_phase hp]
  revert hshift
  cases p <;> decide

theorem pinsAt_shifting (hp : p ∈ shifting) (hoe : s.oe = Config.OE_MASK) (hhigh : s.out.getLsbD 4 = true)
    (hdin : s.half = true → ∃ b, s.sh = some b ∧ s.out = pinSetupWord (dataBit b s.bitcnt)) : PinsAt s p := by
  obtain rfl | rfl | rfl := mem_shifting_iff.1 hp <;> exact ⟨hoe, hhigh, hdin⟩

/-- Each move leaves OE and OUT as the next phase has them. -/
theorem pinInv_of_move (hp : s.phase = p.code) (hsession : SessionInv s) (h : PinInv s) (hm : Move p s u) :
    PinInv u := by
  obtain ⟨hcounters, -, hat⟩ := (sessionInv_iff hp).1 hsession
  obtain ⟨hword, hpins⟩ := (pinInv_iff hp).1 h
  cases hm with
  | rest => exact h
  | load => exact (pinInv_iff (startSession_phase _)).2 ⟨hword, hpins⟩
  | magicRight | lengthFits | waitLow | waitHigh | payloadSent =>
    exact (pinInv_iff (goto_phase _ _)).2 ⟨hword, hpins⟩
  | magicWrong | lengthTooLarge => exact pinInv_finish hword hpins trivial
  | enable => exact (pinInv_iff (goto_phase _ _)).2 ⟨hword, rfl⟩
  | pulseLow => exact (pinInv_iff (goto_phase _ _)).2 ⟨pinResetWord_mem, hpins, rfl⟩
  | pulseHigh => exact (pinInv_iff (goto_phase _ _)).2 ⟨pinIdleWord_mem, hpins.1, rfl⟩
  | initReady =>
    rw [takeIn_eq]
    exact (pinInv_iff (goto_phase _ _)).2 ⟨hword, hpins.1, hpins.2 ▸ pinIdleWord_bit4⟩
  | initTimeout =>
    rw [takeIn_eq]
    exact pinInv_finish hword (.inr hpins.1) hpins
  | fetch =>
    have hhalf : s.half ≠ true := by simp [(hcounters (by decide)).2]
    exact (pinInv_iff (goto_phase _ _)).2 ⟨hword, hpins.1, hpins.2, fun h => absurd h hhalf⟩
  | checkReady =>
    rw [takeIn_eq]
    exact (pinInv_iff (goto_phase _ _)).2 ⟨hword, hpins.1, hpins.2.1⟩
  | checkAbort =>
    rw [takeIn_eq]
    exact pinInv_finish hword (.inr hpins.1) ⟨hpins.1, hpins.2.2⟩
  | anchor =>
    rw [takeNow_eq]
    exact (pinInv_iff (goto_phase _ _)).2 ⟨hword, hpins⟩
  | sampleDone | sampleNotDone =>
    have hhalf : s.half ≠ true := by simp [(hcounters (by decide)).2]
    rw [takeIn_eq]
    exact (pinInv_iff (goto_phase _ _)).2 ⟨hword, hpins.1, hpins.2, fun h => absurd h hhalf⟩
  | beforeDeadline =>
    rw [takeNow_eq]
    exact (pinInv_iff (goto_phase _ _)).2 ⟨hword, hpins.1, hpins.2 ▸ pinClockWord_bit4 true⟩
  | deadline =>
    rw [takeNow_eq]
    exact pinInv_finish hword (.inr hpins.1) hpins
  | @setup _ _ b hshift hsh =>
    have hoe := oe_of_shifting hp h hshift
    refine (pinInv_iff (p := p) ?_).2
      ⟨pinSetupWord_mem _, pinsAt_shifting hshift hoe (pinSetupWord_bit4 _) fun _ => ⟨b, hsh, rfl⟩⟩
    exact hp
  | clock hshift =>
    have hoe := oe_of_shifting hp h hshift
    refine (pinInv_iff (p := p) ?_).2 ⟨pinClockWord_mem _, pinsAt_shifting hshift hoe (pinClockWord_bit4 _) nofun⟩
    exact hp
  | @endPayloadByte _ b i hsh _ hbit =>
    exact (pinInv_iff (goto_phase _ _)).2
      ⟨pinClockWord_mem _, hpins.1, pinClockWord_bit4 _, b, hsh, by simp [clocked, hbit, dataBit_last]⟩
  | @endPollFiller _ b hsh _ hbit =>
    obtain rfl : Config.FILLER = b := Option.some.inj (hat.2.2.symm.trans hsh)
    exact (pinInv_iff (goto_phase _ _)).2
      ⟨pinClockWord_mem _, hpins.1, by simp only [clocked, goto_out, writeOut_out, hbit]; rfl⟩
  | @endLastFiller _ b hsh _ hbit =>
    obtain rfl : Config.FILLER = b := Option.some.inj (hat.2.symm.trans hsh)
    exact (pinInv_iff (goto_phase _ _)).2
      ⟨pinClockWord_mem _, hpins.1, by simp only [clocked, goto_out, writeOut_out, hbit]; rfl⟩
  | linesIdle => exact pinInv_finish pinIdleWord_mem (.inr hpins.1) ⟨hpins.1, rfl⟩
  | handOver => exact (pinInv_iff (leave_phase _ _)).2 ⟨hword, hpins.1⟩

end MoveKeeps

theorem inv_popHost {s : State} (h : Inv s) : Inv (popHost s) :=
  { h with session := { h.session with }, pins := { h.pins with } }

/-- Block reset leaves every register as the invariant has it in IDLE, whatever it held (R260). -/
theorem inv_blockReset {s : State} (hmem : Memory.wf s.mem = true) : Inv (blockReset s) where
  legalPhase := rfl
  memory := hmem
  session := (sessionInv_iff (blockReset_phase s)).2 ⟨fun _ => ⟨rfl, rfl⟩, nofun, trivial⟩
  pins := (pinInv_iff (blockReset_phase s)).2 ⟨pinResetWord_mem, .inl ⟨rfl, rfl⟩⟩

/-- Each move ends in a phase of the table: its own, or the one it names. -/
theorem legalPhase_of_move {s u : State} {p : Phase} (hp : s.phase = p.code) (hm : Move p s u) :
    (Phase.ofCode u.phase).isSome = true := by
  cases hm with
  | rest | setup | clock => simp [clocked, hp]
  | _ => simp

/-- Settles O53: the state after reset is what block reset makes of it. -/
theorem resetMeetsTheInvariant : Obligations.ResetMeetsTheInvariant :=
  inv_blockReset (s := State.reset) State.reset_memory_wf

/-- Settles O54: a step is a block reset, which makes the invariant hold, or a move of the present phase, which keeps
each part of it. -/
theorem stepKeepsTheInvariant : Obligations.StepKeepsTheInvariant := by
  intro s t h hstep
  obtain ⟨-, rfl⟩ | ⟨p, u, hp, -, hexec, rfl⟩ := step_next_cases hstep
  · exact inv_popHost (inv_blockReset h.memory)
  · have hm := move_of_exec hexec
    have hmem : u.mem = s.mem := congrArg Prod.fst (exec_keeps_imageAndHost s p.instr u hexec)
    exact inv_popHost ⟨legalPhase_of_move hp hm, hmem ▸ h.memory, sessionInv_of_move hp h.session hm,
      pinInv_of_move hp h.session h.pins hm⟩

end Sys2Proof.Proofs

namespace Sys2Proof.Proofs

open Machine Safety

/-! ## No fault from a state of the invariant -/

section NoFault

variable {s : State} {p : Phase}

theorem withRead_ne_fault {need offset n : Nat} (f : List Byte → State → State) (r : Fault) :
    withRead s need offset n (fun bytes t => .next (f bytes t)) ≠ .fault r := by
  rcases withRead_cases s need offset n fun bytes t => .next (f bytes t) with ⟨-, h⟩ | ⟨-, h⟩ <;> simp [h]

theorem withNow_ne_fault (f : Millis → State → State) (r : Fault) :
    withNow s (fun a t => .next (f a t)) ≠ .fault r := by
  rcases withNow_cases s fun a t => .next (f a t) with ⟨-, h⟩ | ⟨-, h⟩ <;> simp [h]

theorem shiftStep_ne_fault {next : PhaseCode} {count : Bool} (hsh : s.sh.isSome = true)
    (hidx : count = true → s.idx.isSome = true) (r : Fault) : shiftStep next count s ≠ .fault r := by
  obtain ⟨b, hb⟩ := Option.isSome_iff_exists.1 hsh
  obtain ⟨t, ht⟩ := shiftStep_next_of (next := next) hb hidx
  simp [ht]

/-- The registers an operation reads hold values in its phase: IDX and LEN in S_FETCH, SH and IDX in the shifting
phases, T0 in P_DEADLINE and RESULT in X_RET (R37). -/
theorem exec_ne_fault (hp : s.phase = p.code) (h : SessionInv s) (r : Fault) : exec p.instr s ≠ .fault r := by
  obtain ⟨-, hbound, hat⟩ := (sessionInv_iff hp).1 h
  cases p with
  | vMagic =>
    show execVMagic s ≠ _
    exact withRead_ne_fault _ r
  | vLen =>
    show execVLen s ≠ _
    exact withRead_ne_fault _ r
  | sFetch =>
    obtain ⟨l, hl⟩ := Option.isSome_iff_exists.1 hat
    obtain ⟨-, i, hi, -⟩ := hbound l hl
    show execSFetch s ≠ _
    simp only [execSFetch, hi, hl]
    split
    · simp
    · exact withRead_ne_fault _ r
  | sShift =>
    obtain ⟨hsh, -, i, -, hi, -⟩ := hat
    exact shiftStep_ne_fault hsh (fun _ => by rw [hi]; rfl) r
  | pFill =>
    obtain ⟨-, -, hsh⟩ := hat
    exact shiftStep_ne_fault (count := false) (by rw [hsh]; rfl) nofun r
  | fComp =>
    obtain ⟨-, hsh⟩ := hat
    exact shiftStep_ne_fault (count := false) (by rw [hsh]; rfl) nofun r
  | pAnchor =>
    show execPAnchor s ≠ _
    exact withNow_ne_fault _ r
  | pDeadline =>
    obtain ⟨-, ⟨a, -, ha, -⟩, -⟩ := hat
    show execPDeadline s ≠ _
    simp only [execPDeadline, ha]
    exact withNow_ne_fault _ r
  | xRet =>
    obtain ⟨k, hk⟩ := hat
    show execXRet s ≠ _
    simp [execXRet, hk]
  | _ => exact nofun

end NoFault

/-- Settles O55: PHASE names an operation, and the registers that operation reads hold values. -/
theorem invariantStatesDoNotFault : Obligations.InvariantStatesDoNotFault := by
  intro s r h
  rcases step_cases s with ⟨-, hs⟩ | ⟨-, -, hs⟩ | ⟨hnone, -⟩ | ⟨p, hp, -, -, hs⟩
  · simp [hs]
  · simp [hs]
  · exact absurd h.legalPhase (by simp [hnone])
  · rw [hs]
    have hexec := exec_ne_fault hp h.session r
    cases hu : exec p.instr s <;> simp_all

/-! ## The pin registers over a step -/

section Pins

variable {s u : State} {p : Phase}

/-- Only X_RET makes the RET event. -/
theorem ret_of_move {c : Code3} (hm : Move p s u) (htrace : u.trace = s.trace ++ [.ret c]) :
    p = .xRet ∧ s.result = some c ∧ u = leave c s := by
  cases hm with
  | handOver hresult =>
    obtain rfl : _ = c := by simpa using htrace
    exact ⟨rfl, hresult, rfl⟩
  | _ => simp [clocked] at htrace

/-- OE is written by D_OE alone, and with the one word. -/
theorem oe_of_move (hm : Move p s u) : u.oe = s.oe ∨ u.oe = Config.OE_MASK := by
  cases hm with
  | enable => exact .inr rfl
  | _ => simp [clocked]

/-- What a move can leave in OUT: what it held, the reset word, a word with CCLK low, or, from the second half of a bit,
the bit's clock word. -/
theorem out_of_move (hm : Move p s u) :
    u.out = s.out ∨ (p = .rLow ∧ u.out = pinResetWord) ∨ (∃ d, u.out = pinSetupWord d) ∨
    (p ∈ shifting ∧ s.half = true ∧ ∃ b, s.sh = some b ∧ u.out = pinClockWord (dataBit b s.bitcnt)) := by
  cases hm with
  | pulseLow => exact .inr (.inl ⟨rfl, rfl⟩)
  | pulseHigh | linesIdle => exact .inr (.inr (.inl ⟨false, rfl⟩))
  | setup => exact .inr (.inr (.inl ⟨_, rfl⟩))
  | clock hshift hsh hhalf => exact .inr (.inr (.inr ⟨hshift, hhalf, _, hsh, rfl⟩))
  | endPayloadByte hsh hhalf | endPollFiller hsh hhalf | endLastFiller hsh hhalf =>
    exact .inr (.inr (.inr ⟨by decide, hhalf, _, hsh, rfl⟩))
  | _ => exact .inl (by simp)

/-- PROGRAM_B is written low by R_LOW alone. -/
theorem programB_of_move (hm : Move p s u) (hp : p ≠ .rLow) (hhigh : s.out.getLsbD 4 = true) :
    u.out.getLsbD 4 = true := by
  obtain h | ⟨h, -⟩ | ⟨d, h⟩ | ⟨-, -, b, -, h⟩ := out_of_move hm
  · rw [h, hhigh]
  · exact absurd h hp
  · rw [h]; exact pinSetupWord_bit4 d
  · rw [h]; exact pinClockWord_bit4 _

theorem pinSetupWord_bit0 (d : Bool) : (pinSetupWord d).getLsbD 0 = false := by cases d <;> rfl

theorem pinClockWord_eq_ite (d : Bool) : pinClockWord d = if d then 0x13#5 else 0x11#5 := by cases d <;> rfl

theorem pinClockWord_bit1 (d : Bool) : (pinClockWord d).getLsbD 1 = (pinSetupWord d).getLsbD 1 := by
  cases d <;> rfl

/-- CCLK is raised by the second half of a bit alone. -/
theorem out_of_raising_move (hm : Move p s u) (hlow : s.out.getLsbD 0 = false) (hhigh : u.out.getLsbD 0 = true) :
    p ∈ shifting ∧ s.half = true ∧ ∃ b, s.sh = some b ∧ u.out = pinClockWord (dataBit b s.bitcnt) := by
  obtain h | ⟨-, h⟩ | ⟨d, h⟩ | h := out_of_move hm
  · rw [h, hlow] at hhigh; cases hhigh
  · rw [h] at hhigh; cases hhigh
  · rw [h, pinSetupWord_bit0] at hhigh; cases hhigh
  · exact h

end Pins

/-- Settles O57: OE is only ever written with its one word, and PROGRAM_B only ever high but by R_LOW. -/
theorem linesStayDrivenAndReleased : Obligations.LinesStayDrivenAndReleased := by
  intro s t hstep hhost
  obtain ⟨hreset, -⟩ | ⟨p, u, hp, -, hexec, rfl⟩ := step_next_cases hstep
  · exact absurd hreset hhost
  have hm := move_of_exec hexec
  constructor
  · intro hoe
    exact (oe_of_move hm).elim (fun h => h.trans hoe) id
  · intro hphase hhigh
    have hlow : p ≠ .rLow := fun h => hphase (by rw [hp, h]; rfl)
    exact (programB_of_move hm hlow hhigh :)

/-- Settles O58: CCLK rises at the second half of a bit, whose setup word stands on the lines with the same DIN. -/
theorem dinIsStableAtEveryRisingEdge : Obligations.DinIsStableAtEveryRisingEdge := by
  intro s t hinv hstep hlow hhigh
  obtain ⟨-, rfl⟩ | ⟨p, u, hp, -, hexec, rfl⟩ := step_next_cases hstep
  · exact absurd hhigh (by simp)
  obtain ⟨hshift, hhalf, b, hsh, hout⟩ := out_of_raising_move (move_of_exec hexec) hlow hhigh
  obtain ⟨c, hc, hsetup⟩ := hinv.pins.dinSet (by rw [inPhase_of_phase hp]; exact decide_eq_true hshift) hhalf
  obtain rfl : b = c := Option.some.inj (hsh.symm.trans hc)
  rw [popHost_out, hout, hsetup]
  exact ⟨pinClockWord_bit1 _, pinSetupWord_bit4 _, pinClockWord_bit4 _⟩

/-- Settles O56: the step that makes RET is X_RET's, with the code in RESULT and the lines as that result left them. -/
theorem pinsAtReturnByResult : Obligations.PinsAtReturnByResult := by
  intro s t c hinv hstep htrace
  obtain ⟨-, rfl⟩ | ⟨p, u, hp, -, hexec, rfl⟩ := step_next_cases hstep
  · simp at htrace
  obtain ⟨rfl, hresult, rfl⟩ := ret_of_move (move_of_exec hexec) htrace
  obtain ⟨k, hk⟩ := ((sessionInv_iff hp).1 hinv.session).2.2
  obtain ⟨-, -, hleft⟩ := (pinInv_iff hp).1 hinv.pins
  obtain rfl : c = k.code := Option.some.inj (hresult.symm.trans hk)
  have hat : LeftAt s k := hleft k hk
  refine ⟨rfl, fun h => ?ok, fun h => ?initTimeout, fun h => ?midStreamAbort, fun h => ?doneTimeout, ?bound⟩
  case ok =>
    obtain rfl : k = .ok := Kind.code_inj h
    exact hat
  case initTimeout =>
    obtain rfl : k = .initTimeout := Kind.code_inj h
    exact hat
  case midStreamAbort =>
    obtain rfl : k = .midStreamAbort := Kind.code_inj h
    obtain ⟨hoe, b, hb, hout⟩ := hat
    exact ⟨hoe, b, hb, hout.trans (pinClockWord_eq_ite _)⟩
  case doneTimeout =>
    obtain rfl : k = .doneTimeout := Kind.code_inj h
    exact hat
  case bound => cases k <;> decide

/-! ## The frame of a phase's operation -/

/-- Settles O51: each move writes the registers its phase is listed for; a shifting step that ends no byte writes the
counters alone. -/
theorem sessionRegistersChangeOnlyWhenWritten : Obligations.SessionRegistersChangeOnlyWhenWritten := by
  intro p s t h
  cases move_of_exec h with
  | setup hshift | clock hshift =>
    have hlisted : p ∈ [.idle, .sShift, .pFill, .fComp] :=
      (by decide : shifting ⊆ [.idle, .sShift, .pFill, .fComp]) hshift
    simp [clocked, hlisted]
  | _ => simp [clocked]

/-- Settles O52: each move but the two silent ones makes one event, and the answers are used up by `takeIn` and
`takeNow`. -/
theorem eachOperationMakesItsOneEvent : Obligations.EachOperationMakesItsOneEvent := by
  intro p s t h
  cases move_of_exec h with
  | rest hhost => exact ⟨.inl ⟨rfl, .inl ⟨rfl, hhost⟩⟩, by simp, by simp⟩
  | payloadSent hidx hlen => exact ⟨.inl ⟨rfl, .inr ⟨rfl, hidx.trans hlen.symm⟩⟩, by simp, by simp⟩
  | initReady | initTimeout | checkReady | checkAbort | sampleDone | sampleNotDone =>
    exact ⟨.inr ⟨_, takeIn_trace s, by simp⟩, by simp, by simp⟩
  | anchor | beforeDeadline | deadline => exact ⟨.inr ⟨_, takeNow_trace s, by simp⟩, by simp, by simp⟩
  | setup hshift | clock hshift =>
    have hlisted : p ∈ [.rLow, .rHigh, .sShift, .pFill, .fComp, .fIdle] :=
      (by decide : shifting ⊆ [.rLow, .rHigh, .sShift, .pFill, .fComp, .fIdle]) hshift
    exact ⟨.inr ⟨_, rfl, hlisted⟩, by simp [clocked], by simp [clocked]⟩
  | _ => exact ⟨.inr ⟨_, rfl, by simp⟩, by simp [clocked], by simp [clocked]⟩

/-! ## Nothing moves before validation -/

section Validation

variable {s u : State} {p : Phase}

/-- D_OE is entered by V_LEN alone, on a length that fits. -/
theorem enter_dOe (hp : s.phase = p.code) (hm : Move p s u) (hu : u.phase = Phase.dOe.code) :
    p = .vLen ∧ (be32OfBytes (imageBytes s 4 4)).toNat ≤ Config.MAX_LEN.toNat := by
  cases hm with
  | lengthFits hlen => exact ⟨rfl, hlen⟩
  | setup hshift | clock hshift =>
    obtain rfl : p = .dOe := Phase.code_inj (hp.symm.trans hu)
    exact absurd hshift (by decide)
  | rest => exact absurd (hp.symm.trans hu) (by decide)
  | _ => simp at hu

/-- V_LEN is entered by V_MAGIC alone, on the right magic. -/
theorem enter_vLen (hp : s.phase = p.code) (hm : Move p s u) (hu : u.phase = Phase.vLen.code) :
    p = .vMagic ∧ be32OfBytes (imageBytes s 0 4) = Config.MAGIC := by
  cases hm with
  | magicRight hmagic => exact ⟨rfl, hmagic⟩
  | setup hshift | clock hshift =>
    obtain rfl : p = .vLen := Phase.code_inj (hp.symm.trans hu)
    exact absurd hshift (by decide)
  | rest => exact absurd (hp.symm.trans hu) (by decide)
  | _ => simp at hu

/-- IDLE, the validator and X_RET write no pin register and make no event but LOAD, RD and RET. -/
theorem still_of_move (hm : Move p s u) (hp : p ∈ [.idle, .vMagic, .vLen, .xRet]) :
    u.oe = s.oe ∧ u.out = s.out ∧
      (u.trace = s.trace ∨ ∃ e, u.trace = s.trace ++ [e] ∧ hardwareEvent e = false) := by
  cases hm with
  | rest => exact ⟨rfl, rfl, .inl rfl⟩
  | load | magicRight | magicWrong | lengthFits | lengthTooLarge | handOver =>
    exact ⟨rfl, rfl, .inr ⟨_, rfl, rfl⟩⟩
  | setup hshift | clock hshift =>
    exact absurd hp ((by decide : ∀ q ∈ shifting, q ∉ [.idle, .vMagic, .vLen, .xRet]) p hshift)
  | _ => simp at hp

end Validation

/-- Settles O59: by the moves that enter D_OE and V_LEN, and those of the four phases; block reset enters IDLE. -/
theorem nothingMovesBeforeValidation : Obligations.NothingMovesBeforeValidation := by
  intro s t hstep
  obtain ⟨hreset, rfl⟩ | ⟨p, u, hp, -, hexec, rfl⟩ := step_next_cases hstep
  · exact ⟨nofun, nofun, fun _ hhost => absurd hreset hhost⟩
  have hm := move_of_exec hexec
  refine ⟨fun ht => ?_, fun ht => ?_, fun hs _ => ?_⟩
  · obtain ⟨rfl, hlen⟩ := enter_dOe hp hm ht
    exact ⟨hp, hlen⟩
  · obtain ⟨rfl, hmagic⟩ := enter_vLen hp hm ht
    exact ⟨hp, hmagic⟩
  · have hmember : p ∈ [.idle, .vMagic, .vLen, .xRet] := by
      rw [hp] at hs
      revert hs
      cases p <;> decide
    exact (still_of_move hm hmember :)

end Sys2Proof.Proofs

namespace Sys2Proof.Proofs

open Machine Safety

/-! ## Which rows write the pin registers -/

/-- The rows that write OE (R29). -/
def writesOe : Instr → Bool
  | .dOe | .pinOe | .evOe _ => true
  | _ => false

/-- The rows that write OUT (R30). -/
def writesOut : Instr → Bool
  | .rLow | .rHigh | .sShift | .pFill | .fComp | .fIdle => true
  | .shift8 _ | .pinReset | .pinIdle | .pinSetup _ | .pinClock _ | .evOut _ => true
  | _ => false

/-- The two pin registers. -/
def pinRegs (s : State) : PinWord × PinWord := (s.oe, s.out)

section PinRegs

variable (s : State)

@[simp] theorem decideInit_pins (v : PinWord) : (decideInit v s).oe = s.oe ∧ (decideInit v s).out = s.out := by
  unfold decideInit; split <;> simp

@[simp] theorem decideCheck_pins (v : PinWord) : (decideCheck v s).oe = s.oe ∧ (decideCheck v s).out = s.out := by
  unfold decideCheck; split <;> simp

@[simp] theorem decideDone_pins (v : PinWord) : (decideDone v s).oe = s.oe ∧ (decideDone v s).out = s.out :=
  ⟨rfl, rfl⟩

@[simp] theorem decideMagic_pins (m : Word32) : (decideMagic m s).oe = s.oe ∧ (decideMagic m s).out = s.out := by
  unfold decideMagic; split <;> simp

@[simp] theorem decideLen_pins (l : Word32) : (decideLen l s).oe = s.oe ∧ (decideLen l s).out = s.out := by
  unfold decideLen; split <;> simp

@[simp] theorem answerInit_pins (v : PinWord) : (answerInit v s).oe = s.oe ∧ (answerInit v s).out = s.out := by
  unfold answerInit; split_ifs <;> simp

@[simp] theorem answerDone_pins (v : PinWord) : (answerDone v s).oe = s.oe ∧ (answerDone v s).out = s.out := by
  unfold answerDone; split_ifs <;> simp

@[simp] theorem validateHeader_pins (m l : Word32) :
    (validateHeader m l s).oe = s.oe ∧ (validateHeader m l s).out = s.out := by
  unfold validateHeader validateLen; split_ifs <;> simp

theorem execSFetch_keeps_pinRegs : Keeps pinRegs s (execSFetch s) := by
  unfold execSFetch
  split
  · split
    · exact keeps_next.2 rfl
    · exact keeps_withRead (fun _ => rfl) fun _ _ => keeps_next.2 rfl
  · exact keeps_fault
  · exact keeps_fault

theorem execPDeadline_keeps_pinRegs : Keeps pinRegs s (execPDeadline s) := by
  unfold execPDeadline
  split
  · exact keeps_fault
  · refine keeps_withNow (by simp [pinRegs]) fun _ => keeps_next.2 ?_
    split <;> rfl

/-- A row that is not listed as a writer keeps both pin registers. -/
theorem exec_keeps_pinRegs {i : Instr} (hoe : writesOe i = false) (hout : writesOut i = false) :
    Keeps pinRegs s (exec i s) := by
  cases i with
  | vMagic | vLen | evRd =>
    simp only [exec, execVMagic, execVLen, execEvRd]
    exact keeps_withRead (fun _ => rfl) fun _ _ => by simp [pinRegs]
  | sFetch => exact execSFetch_keeps_pinRegs s
  | pAnchor | evNow =>
    simp only [exec, execPAnchor, execEvNow]
    exact keeps_withNow (by simp [pinRegs]) fun _ => keeps_next.2 rfl
  | pDeadline => exact execPDeadline_keeps_pinRegs s
  | xRet | evLoad | idle =>
    simp only [exec, execXRet, execEvLoad, execIdle]
    split <;> simp [pinRegs]
  | dOe | pinOe | evOe => cases hoe
  | rLow | rHigh | sShift | pFill | fComp | fIdle | shift8 | pinReset | pinIdle | pinSetup | pinClock | evOut =>
    cases hout
  | _ => exact keeps_next.2 (by simp [pinRegs])

theorem shiftStep_keeps_oe (next : PhaseCode) (count : Bool) : Keeps State.oe s (shiftStep next count s) := by
  intro t h
  obtain ⟨-, -, -, -, hoe, -⟩ := shiftStep_frame h
  exact hoe

/-- A row that writes OUT keeps OE. -/
theorem exec_keeps_oe {i : Instr} (h : writesOut i = true) : Keeps State.oe s (exec i s) := by
  cases i with
  | sShift | pFill | fComp => exact shiftStep_keeps_oe s _ _
  | shift8 b =>
    exact keeps_shiftSteps (s := { s with sh := some b, bitcnt := 0#3, half := false })
      (fun u => shiftStep_keeps_oe u _ _) 16
  | evOut v =>
    simp only [exec, execEvOut]
    split <;> simp
  | rLow | rHigh | fIdle | pinReset | pinIdle | pinSetup | pinClock => exact keeps_next.2 rfl
  | _ => cases h

/-- A row that writes OE keeps OUT. -/
theorem exec_keeps_out {i : Instr} (h : writesOe i = true) : Keeps State.out s (exec i s) := by
  cases i with
  | evOe m =>
    simp only [exec, execEvOe]
    split <;> simp
  | dOe | pinOe => exact keeps_next.2 rfl
  | _ => cases h

end PinRegs

/-- Settles O50: a row writes OE, or OUT, or neither. -/
theorem pinRegistersChangeOnlyWhenWritten : Obligations.PinRegistersChangeOnlyWhenWritten := by
  intro i s t h
  constructor
  · intro hev hi
    have hoe : writesOe i = false := by cases i <;> simp_all [writesOe]
    cases hout : writesOut i with
    | true => exact exec_keeps_oe s hout t h
    | false => exact congrArg Prod.fst (exec_keeps_pinRegs s hoe hout t h)
  · intro hev hshift hsetup hclock hi
    have hout : writesOut i = false := by cases i <;> simp_all [writesOut]
    cases hoe : writesOe i with
    | true => exact exec_keeps_out s hoe t h
    | false => exact congrArg Prod.snd (exec_keeps_pinRegs s hoe hout t h)

end Sys2Proof.Proofs

namespace Sys2Proof.Proofs

open Machine

/-! ## Events and their codes -/

@[simp] theorem payloadWord_toNat {n : Nat} (b : BitVec n) : payloadWord n b.toNat = some b :=
  payloadWord_eq_some.2 rfl

/-- An event is read back from its tag and payload. -/
theorem eventOfCode_code (e : Event) : eventOfCode (eventTag e) (eventPayload e) = some e := by
  cases e with
  | rd o bytes =>
    have hbytes : (bytes.map BitVec.toNat).mapM (payloadWord 8) = some bytes := mapM_payloadWord_eq_some.2 rfl
    simp [eventOfCode, eventTag, eventPayload, hbytes]
  | _ => simp [eventOfCode, eventTag, eventPayload]

/-- An item read by `map` is the payload of the event it makes. -/
theorem payloadWord_map_eq_some {n x : Nat} {f : BitVec n → Event} {e : Event}
    (h : (payloadWord n x).map f = some e) : ∃ b, f b = e ∧ b.toNat = x := by
  obtain ⟨b, hb, rfl⟩ := Option.map_eq_some_iff.1 h
  exact ⟨b, rfl, payloadWord_eq_some.1 hb⟩

/-- The tag fixes the kind of the event, and each item of the payload is the number of one of its words. -/
theorem code_of_eventOfCode {e : Event} {tag : Code3} {payload : List Nat} (h : eventOfCode tag payload = some e) :
    eventTag e = tag ∧ eventPayload e = payload := by
  unfold eventOfCode at h
  split at h
  case h_1 hn | h_2 hn | h_3 hn | h_4 hn | h_5 hn | h_7 hn =>
    obtain ⟨b, rfl, rfl⟩ := payloadWord_map_eq_some h
    exact ⟨(tag_eq_ofNat hn).symm, rfl⟩
  case h_6 o n bytes hn =>
    split_ifs at h with hlength
    obtain ⟨bs, hbs, rfl⟩ := Option.map_eq_some_iff.1 h
    obtain rfl := mapM_payloadWord_eq_some.1 hbs
    exact ⟨(tag_eq_ofNat hn).symm, by simpa [eventPayload] using hlength⟩
  case h_8 hn =>
    cases h
    exact ⟨(tag_eq_ofNat hn).symm, rfl⟩
  case h_9 => cases h

/-- An event row that goes on makes one event of its row, with the answer for the operand that was not given. -/
theorem exec_eventRow_trace {e0 : Event} {s t : State} (h : exec (eventRow e0) s = .next t) :
    ∃ e, t.trace = s.trace ++ [e] ∧ eventRow e = eventRow e0 ∧ eventTag e = eventTag e0 := by
  cases e0 with
  | oe m =>
    simp only [eventRow, exec, execEvOe] at h
    split at h <;> cases h
    exact ⟨.oe m, rfl, rfl, rfl⟩
  | out v =>
    simp only [eventRow, exec, execEvOut] at h
    split at h <;> cases h
    exact ⟨.out v, rfl, rfl, rfl⟩
  | inp v =>
    cases h
    exact ⟨.inp (inAnswer s), takeIn_trace s, rfl, rfl⟩
  | now a =>
    change execEvNow s = .next t at h
    obtain ⟨-, h⟩ := withNow_next h
    cases h
    exact ⟨.now (nowAnswer s), takeNow_trace s, rfl, rfl⟩
  | wait us =>
    cases h
    exact ⟨.wait us, rfl, rfl, rfl⟩
  | rd o bytes =>
    change execEvRd o bytes.length s = .next t at h
    obtain ⟨-, h⟩ := withRead_next h
    cases h
    exact ⟨.rd o (imageBytes s o bytes.length), rfl, by simp [eventRow], rfl⟩
  | ret c =>
    cases h
    exact ⟨.ret c, rfl, rfl, rfl⟩
  | load =>
    simp only [eventRow, exec, execEvLoad] at h
    split at h <;> cases h
    exact ⟨.load, rfl, rfl, rfl⟩

/-- An event row is encoded with its event's tag. -/
theorem encode_eventRow (e : Event) : ∃ operands, encode (eventRow e) = .evt3 (eventTag e) operands := by
  cases e <;> exact ⟨_, rfl⟩

/-- Settles O60: the table of tags and payloads, its inverse, and the one event of each row. -/
theorem traceEventsCarryTagAndPayload : Obligations.TraceEventsCarryTagAndPayload := by
  refine ⟨fun p t us o bs c => ⟨rfl, rfl, rfl, rfl, rfl, rfl, rfl, rfl⟩, fun e tag payload => ⟨code_of_eventOfCode, ?_⟩,
    fun e0 s t h => ?_⟩
  · rintro ⟨rfl, rfl⟩
    exact eventOfCode_code e
  · obtain ⟨e, htrace, hrow, htag⟩ := exec_eventRow_trace h
    exact ⟨e, htrace, hrow, htag ▸ encode_eventRow e0⟩

end Sys2Proof.Proofs

namespace Sys2Proof.Proofs

open Machine Safety

/-! ## Sixteen shifting steps -/

section SendByte

variable {next : PhaseCode} {count : Bool} {s : State} {b : Byte}

/-- The state after bit `k` of a byte has been set up and clocked; after the eighth, BITCNT is 0 again. -/
def sentBit (b : Byte) (s : State) (k : BitVec 3) : State :=
  { s with
    bitcnt := k + 1#3, half := false, out := pinClockWord (dataBit b k)
    trace := s.trace ++ [.out (pinSetupWord (dataBit b k)), .out (pinClockWord (dataBit b k))] }

/-- The state after the sixteen words of a byte (R184), before PHASE moves on. -/
def sentByte (b : Byte) (s : State) : State :=
  { s with
    bitcnt := 0#3, half := false, out := pinClockWord (b.getLsbD 0), trace := s.trace ++ shift8Events b }

/-- A byte is its eight bits, sent in order. -/
theorem foldl_sentBit (b : Byte) (s : State) : bitIndexes.foldl (sentBit b) s = sentByte b s := by
  simp [bitIndexes, sentBit, sentByte, shift8Events, shift8Words, dataBit]

theorem shiftSteps_succ_of_next {t : State} (n : Nat) (h : shiftStep next count s = .next t) :
    shiftSteps next count (n + 1) s = shiftSteps next count n t := by
  simp [shiftSteps, h]

/-- Two shifting steps send a bit before the eighth. -/
theorem shiftSteps_bit {k : BitVec 3} (n : Nat) (hsh : s.sh = some b) (hhalf : s.half = false) (hbit : s.bitcnt = k)
    (hk : k ≠ 7#3) : shiftSteps next count (n + 2) s = shiftSteps next count n (sentBit b s k) := by
  subst hbit
  have hclock := shiftStep_of_clockHalf (next := next) (count := count)
    (s := { writeOut (pinSetupWord (dataBit b s.bitcnt)) s with half := true }) hsh rfl hk
  rw [shiftSteps_succ_of_next _ (shiftStep_of_setupHalf hsh hhalf), shiftSteps_succ_of_next _ hclock]
  simp [sentBit, writeOut, emit]

/-- Two shifting steps send the eighth bit and end the byte. -/
theorem shiftSteps_eighthBit (hsh : s.sh = some b) (hhalf : s.half = false) (hbit : s.bitcnt = 7#3) :
    shiftSteps next count 2 s = endByte next count (sentBit b s 7#3) := by
  rw [shiftSteps_succ_of_next _ (shiftStep_of_setupHalf hsh hhalf)]
  have hlast := shiftStep_of_eighthClockHalf (next := next) (count := count)
    (s := { writeOut (pinSetupWord (dataBit b s.bitcnt)) s with half := true }) hsh rfl hbit
  simp only [shiftSteps, hlast]
  cases count with
  | false => simp [endByte, sentBit, writeOut, emit, hbit]
  | true => cases hi : s.idx <;> simp [endByte, sentBit, writeOut, emit, hbit, hi]

/-- Sixteen shifting steps from the start of a byte send its eight bits and end it (R184). -/
theorem shiftSteps_byte (hsh : s.sh = some b) (hbit : s.bitcnt = 0#3) (hhalf : s.half = false) :
    shiftSteps next count 16 s = endByte next count (sentByte b s) := by
  rw [← foldl_sentBit]
  calc shiftSteps next count 16 s
    _ = shiftSteps next count 14 ([0#3].foldl (sentBit b) s) := shiftSteps_bit 14 hsh hhalf hbit (by decide)
    _ = shiftSteps next count 12 ([0#3, 1#3].foldl (sentBit b) s) := shiftSteps_bit 12 hsh rfl rfl (by decide)
    _ = shiftSteps next count 10 ([0#3, 1#3, 2#3].foldl (sentBit b) s) := shiftSteps_bit 10 hsh rfl rfl (by decide)
    _ = shiftSteps next count 8 ([0#3, 1#3, 2#3, 3#3].foldl (sentBit b) s) :=
      shiftSteps_bit 8 hsh rfl rfl (by decide)
    _ = shiftSteps next count 6 ([0#3, 1#3, 2#3, 3#3, 4#3].foldl (sentBit b) s) :=
      shiftSteps_bit 6 hsh rfl rfl (by decide)
    _ = shiftSteps next count 4 ([0#3, 1#3, 2#3, 3#3, 4#3, 5#3].foldl (sentBit b) s) :=
      shiftSteps_bit 4 hsh rfl rfl (by decide)
    _ = shiftSteps next count 2 ([0#3, 1#3, 2#3, 3#3, 4#3, 5#3, 6#3].foldl (sentBit b) s) :=
      shiftSteps_bit 2 hsh rfl rfl (by decide)
    _ = endByte next count (bitIndexes.foldl (sentBit b) s) := shiftSteps_eighthBit hsh rfl rfl

end SendByte

/-! ## The machine's steps in a shifting phase -/

section RunShifting

variable {s t : State} {p : Phase}

/-- With a quiet host, a step is the present phase's operation, whatever its outcome. -/
theorem step_of_quiet (hp : s.phase = p.code) (hhost : s.host = []) :
    step s = afterNext popHost (exec p.instr s) := by
  unfold step stepOnce runPhase
  rw [hp]
  simp [hhost]

/-- A quiet host's script has nothing to move past. -/
theorem popHost_of_quiet (hhost : s.host = []) : popHost s = s := by
  cases s; cases hhost; rfl

/-- How many of a byte's sixteen words have been written. -/
def wordsSent (s : State) : Nat := 2 * s.bitcnt.toNat + s.half.toNat

theorem exec_shifting (hp : p ∈ shifting) (s : State) :
    exec p.instr s = shiftStep (shiftTarget p.code).1 (shiftTarget p.code).2 s := by
  obtain rfl | rfl | rfl := mem_shifting_iff.1 hp <;> rfl

/-- A shifting step that does not end the byte stays in its phase. -/
theorem shiftStep_stays {next : PhaseCode} {count : Bool} (h : shiftStep next count s = .next t)
    (hwords : wordsSent s < 15) : t.phase = s.phase ∧ wordsSent t = wordsSent s + 1 := by
  unfold wordsSent at *
  obtain ⟨b, hsh, ⟨hhalf, rfl⟩ | ⟨hhalf, hbit, rfl⟩ | ⟨hhalf, hbit, -⟩ | ⟨hhalf, hbit, -⟩⟩ := shiftStep_cases h
  · simp [hhalf]
  · have hlt : s.bitcnt.toNat + 1 < 2 ^ 3 := by
      have hne : s.bitcnt.toNat ≠ 7 := fun h7 => hbit (BitVec.eq_of_toNat_eq h7)
      omega
    have hnext : (s.bitcnt + 1#3).toNat = s.bitcnt.toNat + 1 := BitVec.toNat_add_of_lt hlt
    simp only [writeOut_phase, hhalf, hnext, true_and, Bool.toNat_true, Bool.toNat_false]
    omega
  · simp [hhalf, hbit] at hwords
  · simp [hhalf, hbit] at hwords

/-- Within a byte, steps of the machine are shifting steps. -/
theorem run_eq_shiftSteps (hshift : p ∈ shifting) (n : Nat) (hp : s.phase = p.code) (hhost : s.host = [])
    (hn : wordsSent s + n ≤ 16) :
    run n s = shiftSteps (shiftTarget p.code).1 (shiftTarget p.code).2 n s := by
  induction n generalizing s with
  | zero => rfl
  | succ n ih =>
    have hstep : step s = afterNext popHost (shiftStep (shiftTarget p.code).1 (shiftTarget p.code).2 s) := by
      rw [step_of_quiet hp hhost, exec_shifting hshift]
    unfold shiftSteps
    cases ht : shiftStep (shiftTarget p.code).1 (shiftTarget p.code).2 s with
    | next t =>
      obtain ⟨-, -, -, -, -, -, -, -, -, -, -, -, -, hhost', -⟩ := shiftStep_frame ht
      have hquiet : t.host = [] := hhost'.trans hhost
      rw [ht, afterNext_next, popHost_of_quiet hquiet] at hstep
      rw [run_succ_of_next n hstep]
      by_cases hwords : wordsSent s < 15
      · obtain ⟨hphase, hsent⟩ := shiftStep_stays ht hwords
        exact ih (hphase.trans hp) hquiet (by omega)
      · obtain rfl : n = 0 := by omega
        rfl
    | fault r => exact run_succ_of_fault n (by rw [hstep, ht]; rfl)
    | refused r => exact run_succ_of_refused n (by rw [hstep, ht]; rfl)

end RunShifting

end Sys2Proof.Proofs

namespace Sys2Proof.Proofs

open Machine Safety

/-! ## SHIFT8 and the sixteen steps it stands for -/

section Shift8

variable {s : State} {p : Phase} {b : Byte} {i : Word32}

/-- SHIFT8 sends its byte and ends it as the present phase ends a byte (R184). -/
theorem exec_shift8 (b : Byte) (s : State) : exec (.shift8 b) s =
    endByte (shiftTarget s.phase).1 (shiftTarget s.phase).2 (sentByte b { s with sh := some b }) :=
  shiftSteps_byte (s := { s with sh := some b, bitcnt := 0#3, half := false }) rfl rfl rfl

/-- Sixteen steps from the start of a byte send the byte in SH, as the present phase ends one. -/
theorem run_byte (hshift : p ∈ shifting) (hp : s.phase = p.code) (hhost : s.host = []) (hsh : s.sh = some b)
    (hbit : s.bitcnt = 0#3) (hhalf : s.half = false) :
    run 16 s = endByte (shiftTarget p.code).1 (shiftTarget p.code).2 (sentByte b s) := by
  have hwords : wordsSent s + 16 ≤ 16 := by simp [wordsSent, hbit, hhalf]
  rw [run_eq_shiftSteps hshift 16 hp hhost hwords, shiftSteps_byte hsh hbit hhalf]

/-- From the start of a byte, sending it writes OUT and the trace alone. -/
theorem sentByte_of_start (hbit : s.bitcnt = 0#3) (hhalf : s.half = false) : sentByte b s =
    { s with out := pinClockWord (b.getLsbD 0), trace := s.trace ++ shift8Events b } := by
  rw [sentByte, ← hbit, ← hhalf]

/-- A payload byte is sent and counted, and INIT_B is sampled next (R182, R183). -/
theorem run_payloadBits (hp : s.phase = Phase.sShift.code) (hhost : s.host = []) (hsh : s.sh = some b)
    (hbit : s.bitcnt = 0#3) (hhalf : s.half = false) (hidx : s.idx = some i) :
    run 16 s = .next
      { s with
        idx := some (i + 1#32), out := pinClockWord (b.getLsbD 0), phase := Phase.sCheck.code
        trace := s.trace ++ shift8Events b } := by
  refine (run_byte (by decide) hp hhost hsh hbit hhalf).trans ?_
  rw [sentByte_of_start hbit hhalf]
  refine (endByte_counted (by exact hidx) _).trans ?_
  rw [← hbit]
  rfl

/-- A filler byte is sent and not counted (R203, R205). -/
theorem run_fillerBits (q : Phase) (hshift : p ∈ shifting) (htarget : shiftTarget p.code = (q.code, false))
    (hp : s.phase = p.code) (hhost : s.host = []) (hsh : s.sh = some b) (hbit : s.bitcnt = 0#3)
    (hhalf : s.half = false) :
    run 16 s = .next
      { s with
        out := pinClockWord (b.getLsbD 0), phase := q.code, trace := s.trace ++ shift8Events b } := by
  rw [run_byte hshift hp hhost hsh hbit hhalf, sentByte_of_start hbit hhalf, htarget, endByte_uncounted, ← hbit]

end Shift8

/-- Settles O29: SHIFT8 ends its byte as the present phase does; where none shifts, it stays. -/
theorem shift8EmitsAByte : Obligations.Shift8EmitsAByte := by
  intro s b r
  have hsent : sentByte b { s with sh := some b } = r := by rw [sentByte, pinClockWord_eq_ite]
  rw [exec_shift8, hsent]
  refine ⟨fun i hp hidx => ?_, fun hp => ?_, fun hp => ?_, fun hp => ?_⟩
  · rw [hp]
    exact endByte_counted (s := r) hidx _
  · rw [hp]; rfl
  · rw [hp]; rfl
  · have htarget : shiftTarget s.phase = (s.phase, false) := by
      simp only [List.mem_cons, List.not_mem_nil, or_false, not_or] at hp
      obtain ⟨hshift, hfill, hcomp⟩ := hp
      simp only [shiftTarget, Phase.code, hshift, hfill, hcomp, if_false]
    rw [htarget]
    rfl

/-- Settles O30: the steps of a shifting phase are its shifting steps, sixteen of which are SHIFT8. -/
theorem sixteenStepsAreShift8 : Obligations.SixteenStepsAreShift8 := by
  intro s b hphase hhost hsh hbit hhalf _
  obtain ⟨p, hshift, hp⟩ : ∃ p ∈ shifting, s.phase = Phase.code p := by
    simp only [List.mem_cons, List.not_mem_nil, or_false] at hphase
    obtain h | h | h := hphase
    · exact ⟨.sShift, by decide, h⟩
    · exact ⟨.pFill, by decide, h⟩
    · exact ⟨.fComp, by decide, h⟩
  rw [run_byte hshift hp hhost hsh hbit hhalf, exec_shift8, hp, ← hsh, ← hp]

/-! ## Steps with a quiet host -/

section QuietRun

variable {s t : State} {p : Phase}

/-- With a quiet host, a step of a run is the present phase's operation, and the host stays quiet. -/
theorem run_of_quietPhase (k : Nat) (hp : s.phase = p.code) (hhost : s.host = []) (h : exec p.instr s = .next t) :
    run (k + 1) s = run k t := by
  have hkept : imageAndHost t = imageAndHost s := exec_keeps_imageAndHost s p.instr t h
  have hquiet : t.host = [] := (congrArg (fun x => x.2.2.2) hkept).trans hhost
  rw [run_of_phase k hp hhost h, popHost_of_quiet hquiet]

theorem exec_xRet_of_some {c : Code3} (h : s.result = some c) : exec .xRet s = .next (leave c s) := by
  simp [exec, execXRet, h]

/-- After a failure or success, one step hands the result over. -/
theorem run_finish (k : Kind) (s : State) (hhost : s.host = []) :
    run 1 (finish k s) = .next (leave k.code (finish k s)) :=
  run_of_quietPhase (p := .xRet) 0 rfl hhost (exec_xRet_of_some rfl)

end QuietRun

/-- Settles O26: six steps from D_OE, and X_RET's after a sample that reads INIT_B low. -/
theorem resetSequenceIsSixEvents : Obligations.ResetSequenceIsSixEvents := by
  intro s v vs hp hhost hins pulse
  have hrun (k : Nat) : run (k + 6) s = run k (decideInit v
      { s with oe := 0x13#5, out := 0x10#5, ins := vs, phase := 0x08#5, trace := s.trace ++ pulse }) := by
    refine Eq.trans (run_of_quietPhase (p := .dOe) (k + 5) hp hhost rfl) ?_
    refine Eq.trans (run_of_quietPhase (p := .rLow) (k + 4) rfl hhost rfl) ?_
    refine Eq.trans (run_of_quietPhase (p := .rLowWait) (k + 3) rfl hhost rfl) ?_
    refine Eq.trans (run_of_quietPhase (p := .rHigh) (k + 2) rfl hhost rfl) ?_
    refine Eq.trans (run_of_quietPhase (p := .rHighWait) (k + 1) rfl hhost rfl) ?_
    refine Eq.trans (run_of_quietPhase (p := .wInit) k rfl hhost (exec_wInit_of_cons hins)) ?_
    simp [goto, writeOe, writeOut, wait, emit, pulse, Phase.code, Config.OE_MASK, Config.T_PROGRAM_US,
      Config.T_INIT_US, Config.PROGRAM_B_BIT, Config.CCLK_BIT, Config.DIN_BIT, pinResetWord, pinIdleWord]
  refine ⟨rfl, fun hready => ?_, fun hlow => ?_⟩
  · rw [hrun 0, decideInit_of_bit3 hready]
    rfl
  · rw [hrun 1, decideInit_of_not_bit3 hlow]
    exact run_finish .initTimeout _ (by exact hhost)

end Sys2Proof.Proofs

namespace Sys2Proof.Proofs

open Machine Safety

/-! ## The host's part in a step -/

section HostStep

variable {s : State} {rest : List HostInput}

/-- Block reset is taken in any state (R260). -/
theorem step_of_blockReset (hhost : s.host = .blockReset :: rest) : step s = .next (popHost (blockReset s)) := by
  simp [step, stepOnce, hhost]

theorem busy_iff : busy s = true ↔ s.phase ≠ 0x00#5 := bne_iff_ne

/-- LOAD in IDLE begins a session (R140). -/
theorem step_of_load (hp : s.phase = Phase.idle.code) (hhost : s.host = .load :: rest) :
    step s = .next (popHost (startSession s)) := by
  have hexec : exec .idle s = .next (startSession s) := by simp [exec, execIdle, hhost]
  simp [step, stepOnce, runPhase, busy, hp, hhost, Phase.instr, hexec]

/-- LOAD in any other phase has no step (R140). -/
theorem step_of_overlappingLoad (hp : s.phase ≠ Phase.idle.code) (hhost : s.host = .load :: rest) :
    step s = .refused .overlappingLoad := by
  simp [step, stepOnce, busy, hp, hhost]

end HostStep

/-- Settles O10: the step is `blockReset`, which is R260's update, and the script moves on. -/
theorem blockResetAtAnyTime : Obligations.BlockResetAtAnyTime := by
  intro s rest hhost
  rw [step_of_blockReset hhost, popHost, blockReset_host, hhost]
  rfl

/-- Settles O11: without block reset and with LOAD in IDLE only, a step is the decoded operation. -/
theorem stepRunsTheDecodedOperation : Obligations.StepRunsTheDecodedOperation := by
  intro s i hdecode hreset hload
  obtain ⟨p, rfl, hp⟩ := decode_phase5_inv hdecode
  have hstep : step s = afterNext popHost (exec p.instr s) := by
    obtain ⟨h, -⟩ | ⟨h, hbusy, -⟩ | ⟨hnone, -⟩ | ⟨q, hq, -, -, hs⟩ := step_cases s
    · exact absurd h hreset
    · exact absurd (hload h) (busy_iff.1 hbusy)
    · simp [hp] at hnone
    · obtain rfl : q = p := Phase.code_inj (hq.symm.trans hp)
      exact hs
  refine ⟨fun t h => ?_, fun r h => ?_, fun r h => ?_⟩ <;> rw [hstep, h] <;> rfl

/-- Settles O12: LOAD outside IDLE is refused before PHASE is decoded, and a PHASE beyond the table decodes to
nothing. -/
theorem stepsThatDoNotExist : Obligations.StepsThatDoNotExist := by
  refine ⟨fun s rest hhost hphase => step_of_overlappingLoad hphase hhost, fun s hbeyond hreset hload => ?_⟩
  obtain ⟨h, -⟩ | ⟨h, -⟩ | ⟨-, hs⟩ | ⟨p, hp, -⟩ := step_cases s
  · exact absurd h hreset
  · exact absurd h hload
  · exact hs
  · have hle : p.code.toNat < 0x13 := by cases p <;> decide
    rw [hp] at hbeyond
    omega

/-- Settles O13: IDLE and the LOAD event open the same session; the test is the host's input, or PHASE. -/
theorem loadBeginsASession : Obligations.LoadBeginsASession := by
  intro s begun
  have hidle : exec .idle s = .next (if s.host.head? = some .load then startSession s else s) := rfl
  have hload : exec .evLoad s = if busy s then .refused .overlappingLoad else .next (startSession s) := rfl
  refine ⟨fun h => ?_, fun h => ?_, fun h => ?_, fun h => ?_⟩
  · rw [hidle, if_pos h]; rfl
  · rw [hidle, if_neg h]
  · rw [hload, if_neg fun hbusy => busy_iff.1 hbusy h]; rfl
  · rw [hload, if_pos (busy_iff.2 h)]

/-- Settles O21: a session is opened from what LOAD leaves alone. -/
theorem loadForgetsTheLastSession : Obligations.LoadForgetsTheLastSession := by
  intro s rest len idx sh t0 last result k half hp hhost
  exact ⟨_, step_of_load hp hhost, rfl, step_of_load hp hhost⟩

/-! ## The header rows and the validator's steps -/

/-- The four bytes of a word, the most significant first (R7). -/
def wordBytes (w : Word32) : List Byte :=
  [w.extractLsb' 24 8, w.extractLsb' 16 8, w.extractLsb' 8 8, w.extractLsb' 0 8]

/-- A header's bytes are those of its magic and then those of its length (R67). -/
theorem headerBytes_headerWord (m l : Word32) : headerBytes (headerWord m l) = wordBytes m ++ wordBytes l := by
  have hhigh (start : Nat) (h : 32 ≤ start) : (m ++ l).extractLsb' start 8 = m.extractLsb' (start - 32) 8 :=
    BitVec.extractLsb'_append_eq_of_le h
  have hlow (start : Nat) (h : start + 8 ≤ 32) : (m ++ l).extractLsb' start 8 = l.extractLsb' start 8 :=
    BitVec.extractLsb'_append_eq_of_add_le h
  simp [headerBytes, wordBytes, headerWord, hhigh, hlow]

theorem be32OfBytes_wordBytes (w : Word32) : be32OfBytes (wordBytes w) = w := by
  rw [wordBytes, be32OfBytes, be32_eq_append,
    BitVec.extractLsb'_append_extractLsb'_eq_extractLsb' (start₂ := 24) (start₁ := 16) (len₁ := 8) rfl,
    BitVec.extractLsb'_append_extractLsb'_eq_extractLsb' (start₂ := 16) (start₁ := 8) (len₁ := 8) rfl,
    BitVec.extractLsb'_append_extractLsb'_eq_extractLsb' (start₂ := 8) (start₁ := 0) (len₁ := 8) rfl]
  exact BitVec.extractLsb'_eq_self

section HeaderRows

variable {s : State} {m l : Word32}

/-- The validator's second step on a length given as the operand. -/
theorem validateLen_eq (l : Word32) (s : State) :
    validateLen l s = decideLen l (emit (.rd 4 (wordBytes l)) s) := by
  simp [validateLen, headerBytes_headerWord, wordBytes]

theorem validateHeader_of_vMagic_of_ne (hp : s.phase = Phase.vMagic.code) (hm : m ≠ Config.MAGIC) :
    validateHeader m l s = raise .badMagic (emit (.rd 0 (wordBytes m)) s) := by
  simp [validateHeader, hp, hm, decideMagic_of_ne hm, headerBytes_headerWord, wordBytes]

theorem validateHeader_of_vMagic (hp : s.phase = Phase.vMagic.code) :
    validateHeader Config.MAGIC l s =
      decideLen l (emit (.rd 4 (wordBytes l)) (goto .vLen (emit (.rd 0 (wordBytes Config.MAGIC)) s))) := by
  simp [validateHeader, validateLen_eq, hp, decideMagic_of_eq, headerBytes_headerWord, wordBytes]

theorem validateHeader_of_vLen (hp : s.phase = Phase.vLen.code) :
    validateHeader m l s = decideLen l (emit (.rd 4 (wordBytes l)) s) := by
  simp [validateHeader, validateLen_eq, hp]

theorem validateHeader_elsewhere (hmagic : s.phase ≠ Phase.vMagic.code) (hlen : s.phase ≠ Phase.vLen.code) :
    validateHeader m l s = s := by
  simp [validateHeader, hmagic, hlen]

/-- The row a header decodes to validates that header. -/
theorem exec_of_decode_hdr64 {h : BitVec 64} {i : Instr} (hd : decode (.hdr64 h) = .ok i) :
    exec i s = .next (validateHeader (headerMagic h) (headerLength h) s) := by
  by_cases hm : headerMagic h = Config.MAGIC
  · by_cases hl : (headerLength h).toNat ≤ Config.MAX_LEN.toNat
    · obtain rfl : .imageHeader (headerLength h) = i := by simpa [decode_hdr64_of_valid hm hl] using hd
      rw [hm]; rfl
    · obtain rfl : .hdrTooLarge (headerLength h) = i := by
        simpa [decode_hdr64_of_length_gt hm (Nat.lt_of_not_le hl)] using hd
      rw [hm]; rfl
  · obtain rfl : .hdrBadMagic (headerMagic h) (headerLength h) = i := by
      simpa [decode_hdr64_of_magic_ne hm] using hd
    rfl

/-- A header in the image is read in two halves. -/
theorem imageBytes_of_header {h : BitVec 64} (hbytes : imageBytes s 0 8 = headerBytes h) :
    imageBytes s 0 4 = wordBytes (headerMagic h) ∧ imageBytes s 4 4 = wordBytes (headerLength h) := by
  rw [← headerWord_fields h, headerBytes_headerWord, headerMagic_headerWord, headerLength_headerWord] at *
  have hsplit : imageBytes s 0 8 = imageBytes s 0 4 ++ imageBytes s 4 4 := rfl
  exact List.append_inj (hsplit.symm.trans hbytes) (by simp [wordBytes])

end HeaderRows

/-- Settles O16: the rows are `validateHeader`, which from V_MAGIC and from V_LEN decides as the phases do. -/
theorem headerRowsAreTheValidator : Obligations.HeaderRowsAreTheValidator := by
  intro s m l rd0 rd4
  have himage : exec (.imageHeader l) s = .next (validateHeader Config.MAGIC l s) := rfl
  have hbad : exec (.hdrBadMagic m l) s = .next (validateHeader m l s) := rfl
  have hlarge : exec (.hdrTooLarge l) s = .next (validateHeader Config.MAGIC l s) := rfl
  have htrace : s.trace ++ [rd0 0x53415231#32, rd4] = s.trace ++ [rd0 0x53415231#32] ++ [rd4] := by simp
  rw [himage, hbad, hlarge]
  refine ⟨fun hle => ⟨fun hp => ?_, fun hp => ?_, fun hmagic hlen => ?_⟩,
    fun hm => ⟨fun hp => ?_, fun hp => ?_, fun hmagic hlen => ?_⟩,
    fun hgt => ⟨fun hp => ?_, fun hp => ?_, fun hmagic hlen => ?_⟩⟩
  · rw [validateHeader_of_vMagic hp, decideLen_of_le hle, htrace]; rfl
  · rw [validateHeader_of_vLen hp, decideLen_of_le hle]; rfl
  · rw [validateHeader_elsewhere hmagic hlen]
  · rw [validateHeader_of_vMagic_of_ne hp hm]; rfl
  · rw [validateHeader_of_vLen hp]
    split
    · rw [decideLen_of_le ‹_›]; rfl
    · rw [decideLen_of_gt (Nat.lt_of_not_le ‹_›)]; rfl
  · rw [validateHeader_elsewhere hmagic hlen]
  · rw [validateHeader_of_vMagic hp, decideLen_of_gt hgt, htrace]; rfl
  · rw [validateHeader_of_vLen hp, decideLen_of_gt hgt]; rfl
  · rw [validateHeader_elsewhere hmagic hlen]

/-- Settles O17: both forms decide on the same two words, with the same read events. -/
theorem twoValidatorStepsAreTheHeaderRow : Obligations.TwoValidatorStepsAreTheHeaderRow := by
  intro s h i hp hhost hextent hbytes hdecode
  obtain ⟨hmagicBytes, hlenBytes⟩ := imageBytes_of_header hbytes
  have hmagicStep := exec_vMagic_of_readable hextent
  rw [hmagicBytes, be32OfBytes_wordBytes] at hmagicStep
  rw [exec_of_decode_hdr64 hdecode]
  constructor
  · intro hm
    replace hm : headerMagic h = Config.MAGIC := hm
    rw [decideMagic_of_eq hm] at hmagicStep
    refine Eq.trans (run_of_quietPhase (p := .vMagic) 1 hp hhost hmagicStep) ?_
    refine Eq.trans (run_of_quietPhase (p := .vLen) 0 rfl hhost (exec_vLen_of_readable hextent)) ?_
    have hlenRead : imageBytes (goto .vLen (emit (.rd 0 (wordBytes (headerMagic h))) s)) 4 4 =
      wordBytes (headerLength h) := hlenBytes
    rw [hlenRead, be32OfBytes_wordBytes, hm, validateHeader_of_vMagic hp, run_zero]
  · intro hm
    rw [decideMagic_of_ne hm] at hmagicStep
    rw [validateHeader_of_vMagic_of_ne hp hm]
    exact run_of_quietPhase (p := .vMagic) 0 hp hhost hmagicStep

/-! ## Loads that end in the validator -/

section ShortLoads

variable {s : State}

/-- From IDLE, LOAD and V_MAGIC's step. -/
theorem run_load (k : Nat) (hp : s.phase = 0x00#5) (hhost : s.host = [.load]) (hextent : 8 ≤ s.imageExtent) :
    run (k + 2) s = run k (decideMagic (be32OfBytes (imageBytes s 0 4))
      (emit (.rd 0 (imageBytes s 0 4)) (popHost (startSession s)))) := by
  have hquiet : (popHost (startSession s)).host = [] := by simp [hhost]
  refine Eq.trans (run_succ_of_next (k + 1) (step_of_load hp hhost)) ?_
  exact run_of_quietPhase (p := .vMagic) k rfl hquiet (exec_vMagic_of_readable hextent)

end ShortLoads

/-- Settles O19: LOAD, V_MAGIC's failure and its return. -/
theorem badMagicLoadTouchesNoPin : Obligations.BadMagicLoadTouchesNoPin := by
  intro s hp hhost hextent hm
  have hquiet : (popHost (startSession s)).host = [] := by simp [hhost]
  rw [run_load 1 hp hhost hextent, decideMagic_of_ne hm]
  refine Eq.trans (run_finish .badMagic _ hquiet) ?_
  simp [leave, goto, finish, emit, popHost, startSession, hhost, imageBytes, Phase.code, Kind.code]

/-- Settles O20: LOAD, V_MAGIC's step, V_LEN's failure and its return. -/
theorem tooLargeLoadTouchesNoPin : Obligations.TooLargeLoadTouchesNoPin := by
  intro s hp hhost hextent hm hl
  have hquiet : (popHost (startSession s)).host = [] := by simp [hhost]
  rw [run_load 2 hp hhost hextent, decideMagic_of_eq hm]
  refine Eq.trans (run_of_quietPhase (p := .vLen) 1 rfl hquiet (exec_vLen_of_readable hextent)) ?_
  refine Eq.trans (congrArg (run 1) (decideLen_of_gt hl _)) ?_
  refine Eq.trans (run_finish .imageTooLarge _ hquiet) ?_
  simp [leave, goto, finish, emit, popHost, startSession, hhost, imageBytes, Phase.code, Kind.code]

end Sys2Proof.Proofs

namespace Sys2Proof.Proofs

open Machine Safety

/-! ## A payload byte, from S_FETCH to S_CHECK's decision -/

section Payload

variable {s : State} {i l : Word32}

theorem exec_sFetch_of_eq (hidx : s.idx = some i) (hlen : s.len = some i) :
    exec .sFetch s = .next (goto .pAnchor s) := by
  simp [exec, execSFetch, hidx, hlen]

/-- With a byte left, S_FETCH reads it and puts it into SH (R181). -/
theorem exec_sFetch_of_ne (hidx : s.idx = some i) (hlen : s.len = some l) (hne : i ≠ l) :
    exec .sFetch s = withRead s (payloadOffset i + 1) (payloadOffset i) 1 fun bytes t =>
      .next (goto .sShift { t with sh := some (bytes.headD 0#8) }) := by
  simp [exec, execSFetch, hidx, hlen, hne]

theorem exec_sFetch_of_readable (hidx : s.idx = some i) (hlen : s.len = some l) (hne : i ≠ l)
    (hextent : payloadOffset i + 1 ≤ s.imageExtent) :
    exec .sFetch s = .next (goto .sShift
      { emit (.rd (payloadOffset i) (imageBytes s (payloadOffset i) 1)) s with
        sh := some ((imageBytes s (payloadOffset i) 1).headD 0#8) }) := by
  rw [exec_sFetch_of_ne hidx hlen hne, withRead_of_le hextent]

/-- The byte of the image at a payload index, as a read of one byte answers it. -/
def payloadByte (s : State) (i : Nat) : Byte := (imageBytes s (Config.HEADER_BYTES + i) 1).headD 0#8

/-- The events of one payload byte (R188). -/
def byteEvents (s : State) (i : Nat) (v : PinWord) : List Event :=
  .rd (Config.HEADER_BYTES + i) (imageBytes s (Config.HEADER_BYTES + i) 1)
    :: shift8Events (payloadByte s i) ++ [.inp v]

theorem payloadEvents_cons (s : State) (i : Nat) (v : PinWord) (vs : List PinWord) :
    payloadEvents s i (v :: vs) = byteEvents s i v ++ payloadEvents s (i + 1) vs := by
  simp [payloadEvents, byteEvents, payloadByte]

theorem payloadEvents_append (s : State) (i : Nat) (vs ws : List PinWord) :
    payloadEvents s i (vs ++ ws) = payloadEvents s i vs ++ payloadEvents s (i + vs.length) ws := by
  induction vs generalizing i with
  | nil => rfl
  | cons v vs ih =>
    simp only [List.cons_append, payloadEvents_cons, ih, List.append_assoc, List.length_cons]
    rw [Nat.add_right_comm, Nat.add_assoc]

/-- The events depend on the image alone. -/
theorem payloadEvents_congr {t : State} (hmem : t.mem = s.mem) (hbase : t.imageBase = s.imageBase) (i : Nat)
    (vs : List PinWord) : payloadEvents t i vs = payloadEvents s i vs := by
  induction vs generalizing i with
  | nil => rfl
  | cons v vs ih => simp [payloadEvents, imageBytes, hmem, hbase, ih]

/-- The state in which S_CHECK decides on the sample after byte `i`. -/
def checkedByte (s : State) (i : Word32) (v : PinWord) (vs : List PinWord) : State :=
  { s with
    sh := some (payloadByte s i.toNat), idx := some (i + 1#32), ins := vs, phase := Phase.sCheck.code
    out := pinClockWord ((payloadByte s i.toNat).getLsbD 0), trace := s.trace ++ byteEvents s i.toNat v }

/-- S_FETCH with a byte left, its sixteen shifting steps, and S_CHECK (R181 to R185). -/
theorem run_payloadByte {v : PinWord} {vs : List PinWord} (k : Nat) (hp : s.phase = Phase.sFetch.code)
    (hhost : s.host = []) (hbit : s.bitcnt = 0#3) (hhalf : s.half = false) (hidx : s.idx = some i)
    (hlen : s.len = some l) (hlt : i.toNat < l.toNat) (hextent : Config.HEADER_BYTES + l.toNat ≤ s.imageExtent)
    (hins : s.ins = v :: vs) : run (k + 18) s = run k (decideCheck v (checkedByte s i v vs)) := by
  have hne : i ≠ l := fun h => absurd (congrArg BitVec.toNat h) (Nat.ne_of_lt hlt)
  have hread : payloadOffset i + 1 ≤ s.imageExtent := Nat.le_trans (by unfold payloadOffset; omega) hextent
  refine Eq.trans (run_of_quietPhase (p := .sFetch) (k + 17) hp hhost (exec_sFetch_of_readable hidx hlen hne hread)) ?_
  rw [Nat.add_comm k 17, Nat.add_assoc 16 1 k]
  refine Eq.trans (run_add (1 + k) (run_payloadBits rfl hhost rfl hbit hhalf hidx)) ?_
  rw [Nat.add_comm 1 k]
  refine Eq.trans (run_of_quietPhase (p := .sCheck) k rfl hhost (exec_sCheck_of_cons hins)) ?_
  simp [checkedByte, byteEvents, payloadByte, payloadOffset, goto, emit]

/-- A payload byte after which INIT_B reads low ends the load (R185, R207). -/
theorem run_abortedByte {v : PinWord} {vs : List PinWord} (hp : s.phase = Phase.sFetch.code)
    (hhost : s.host = []) (hbit : s.bitcnt = 0#3) (hhalf : s.half = false) (hidx : s.idx = some i)
    (hlen : s.len = some l) (hlt : i.toNat < l.toNat) (hextent : Config.HEADER_BYTES + l.toNat ≤ s.imageExtent)
    (hins : s.ins = v :: vs) (hlow : v.getLsbD 3 = false) :
    run 19 s = .next (leave 4#3 (raise .midStreamAbort (checkedByte s i v vs))) := by
  refine Eq.trans (run_payloadByte 1 hp hhost hbit hhalf hidx hlen hlt hextent hins) ?_
  rw [decideCheck_of_not_bit3 hlow]
  exact run_finish .midStreamAbort _ hhost

/-- While INIT_B reads ready, the payload is sent in order; of the state, only SH, OUT, IDX, the samples and the trace
change. -/
theorem run_payload (k : Nat) {vs rest : List PinWord} (hp : s.phase = Phase.sFetch.code) (hhost : s.host = [])
    (hbit : s.bitcnt = 0#3) (hhalf : s.half = false) (hidx : s.idx = some i) (hlen : s.len = some l)
    (hins : s.ins = vs ++ rest) (hready : ∀ v ∈ vs, v.getLsbD 3 = true) (hle : i.toNat + vs.length ≤ l.toNat)
    (hextent : Config.HEADER_BYTES + l.toNat ≤ s.imageExtent) :
    ∃ sh out, run (k + 18 * vs.length) s = run k
      { s with
        sh := sh, out := out, idx := some (BitVec.ofNat 32 (i.toNat + vs.length)), ins := rest
        trace := s.trace ++ payloadEvents s i.toNat vs } := by
  induction vs generalizing s i with
  | nil =>
    refine ⟨s.sh, s.out, ?_⟩
    have hi : some (BitVec.ofNat 32 (i.toNat + 0)) = s.idx := by simp [hidx]
    have hrest : rest = s.ins := hins.symm
    simp only [List.length_nil, hi, hrest, payloadEvents, List.append_nil]
    rfl
  | cons v vs ih =>
    rw [List.length_cons] at hle
    have hlt : i.toNat < l.toNat := by omega
    have hsucc := toNat_succ_of_lt hlt
    have hv : v.getLsbD 3 = true := hready v (List.mem_cons_self ..)
    have hbyte : run (k + 18 * vs.length + 18) s =
        run (k + 18 * vs.length) (goto .sFetch (checkedByte s i v (vs ++ rest))) := by
      rw [run_payloadByte (vs := vs ++ rest) _ hp hhost hbit hhalf hidx hlen hlt hextent hins, decideCheck_of_bit3 hv]
    obtain ⟨sh, out, hrun⟩ := ih (s := goto .sFetch (checkedByte s i v (vs ++ rest))) (i := i + 1#32)
      rfl hhost hbit hhalf rfl hlen rfl (fun w hw => hready w (List.mem_cons_of_mem v hw)) (by omega) hextent
    refine ⟨sh, out, ?_⟩
    have hcount : i.toNat + 1 + vs.length = i.toNat + (vs.length + 1) := by omega
    have hevents : payloadEvents (goto .sFetch (checkedByte s i v (vs ++ rest))) (i.toNat + 1) vs =
        payloadEvents s (i.toNat + 1) vs := by
      apply payloadEvents_congr <;> rfl
    rw [List.length_cons, Nat.mul_succ, ← Nat.add_assoc, hbyte, hrun, hsucc, hcount, hevents,
      payloadEvents_cons]
    simp [checkedByte, goto, hp]

end Payload

/-- Settles O27: the two branches of S_FETCH, with a read of one byte. -/
theorem sFetchReadsTheNextByte : Obligations.SFetchReadsTheNextByte := by
  intro s i l hidx hlen
  constructor
  · rintro rfl
    exact exec_sFetch_of_eq hidx hlen
  · intro hne hextent b
    exact exec_sFetch_of_readable hidx hlen hne hextent

/-- Settles O31: `run_payload`, read field by field. -/
theorem payloadIsSentInOrder : Obligations.PayloadIsSentInOrder := by
  intro s vs rest i l hp hhost hbit hhalf hidx hlen hins hready hle hextent
  obtain ⟨sh, out, hrun⟩ := run_payload 0 hp hhost hbit hhalf hidx hlen hins hready hle hextent
  rw [Nat.zero_add] at hrun
  exact ⟨_, hrun, hp, rfl, rfl, rfl, rfl, rfl, hbit, hhalf, rfl⟩

/-- Settles O32: the bytes before the last as in `run_payload`, then one byte whose sample fails, and the return. -/
theorem abortAfterExactlyKBytes : Obligations.AbortAfterExactlyKBytes := by
  intro s vs rest v i l hp hhost hbit hhalf hidx hlen hins hready hv hle hextent
  obtain ⟨sh, out, hrun⟩ := run_payload 19 hp hhost hbit hhalf hidx hlen hins hready (by omega) hextent
  have hcount : (BitVec.ofNat 32 (i.toNat + vs.length)).toNat = i.toNat + vs.length :=
    toNat_ofNat_of_lt (by have := l.isLt; omega)
  have hsteps : 18 * (vs.length + 1) + 1 = 19 + 18 * vs.length := by omega
  rw [hsteps, hrun]
  refine ⟨_, run_abortedByte hp hhost hbit hhalf rfl hlen (by omega) hextent rfl hv, rfl, rfl, ?_, rfl, ?_, ?_⟩
  · simp [checkedByte, BitVec.ofNat_add]
  · simp only [checkedByte, leave_out, raise_out, pinClockWord_eq_ite]
    split <;> simp
  · simp only [checkedByte, leave_trace, raise_trace, hcount, payloadEvents_append, payloadEvents_cons]
    simp [payloadEvents, byteEvents, payloadByte, imageBytes]

end Sys2Proof.Proofs

namespace Sys2Proof.Proofs

open Machine Safety

/-! ## The poll -/

section Poll

variable {s : State} {v : PinWord} {vs : List PinWord}

theorem exec_pSample_of_cons (h : s.ins = v :: vs) :
    exec .pSample s = .next (decideDone v { s with ins := vs, trace := s.trace ++ [.inp v] }) := by
  rw [← takeIn_of_cons h, ← inAnswer_of_cons h]; rfl

theorem decideDone_of_bit2 (h : v.getLsbD 2 = true) (s : State) :
    decideDone v s = goto .fComp { s with sh := some Config.FILLER } := by
  rw [decideDone, doneSeen_eq, h]; rfl

theorem decideDone_of_not_bit2 (h : v.getLsbD 2 = false) (s : State) :
    decideDone v s = goto .pFill { s with sh := some Config.FILLER } := by
  rw [decideDone, doneSeen_eq, h]; rfl

/-- With a count placed, `Now()` uses it up and records it (R124). -/
theorem takeNow_of_cons {t : Millis} {ts : List Millis} (h : s.nows = t :: ts) :
    takeNow s = { s with nows := ts, lastNow := some t, trace := s.trace ++ [.now t] } := by
  simp [takeNow_eq, nowAnswer_of_cons h, h]

/-- A placed count that is not below the latest one is within the contract (R124). -/
theorem nowInContract_of_cons {t : Millis} {ts : List Millis} (h : s.nows = t :: ts)
    (hle : ∀ l, s.lastNow = some l → l.toNat ≤ t.toNat) : nowInContract s = true := by
  unfold nowInContract
  rw [h]
  split
  · rename_i heq hl
    cases heq
    exact decide_eq_true (hle _ hl)
  · rfl

/-- P_DEADLINE's decision on the count `t` (R204). -/
def decideDeadline (a t : Millis) (s : State) : State :=
  if deadlineElapsed a t then raise .doneTimeout s else goto .pSample s

theorem decideDeadline_of_elapsed {a t : Millis} (h : a.toNat + 100 ≤ t.toNat) (s : State) :
    decideDeadline a t s = raise .doneTimeout s :=
  if_pos (decide_eq_true h)

theorem decideDeadline_of_early {a t : Millis} (h : t.toNat < a.toNat + 100) (s : State) :
    decideDeadline a t s = goto .pSample s :=
  if_neg fun helapsed => absurd (of_decide_eq_true helapsed) (Nat.not_le_of_lt h)

/-- With T0 held and a count placed that is not below the latest, P_DEADLINE decides on the two. -/
theorem exec_pDeadline_of_cons {a l t : Millis} {ts : List Millis} (ht0 : s.t0 = some a) (hlast : s.lastNow = some l)
    (hnows : s.nows = t :: ts) (hle : l.toNat ≤ t.toNat) :
    exec .pDeadline s =
      .next (decideDeadline a t { s with nows := ts, lastNow := some t, trace := s.trace ++ [.now t] }) := by
  have hcontract : nowInContract s = true := nowInContract_of_cons hnows fun m hm => by
    rwa [Option.some.inj (hm.symm.trans hlast)]
  rw [exec_pDeadline_of_inContract ht0 hcontract, takeNow_of_cons hnows, nowAnswer_of_cons hnows]
  rfl

/-- The state in which P_DEADLINE decides on the count after a sample and a filler. -/
def polled (s : State) (v : PinWord) (vs : List PinWord) (t : Millis) (ts : List Millis) : State :=
  { s with
    ins := vs, nows := ts, lastNow := some t, sh := some Config.FILLER, out := pinClockWord true
    phase := Phase.pDeadline.code, trace := s.trace ++ pollEvents [v] [t] }

/-- A poll iteration that finds DONE low: a sample, a filler byte and a count (R202 to R204). -/
theorem run_pollIteration {a l t : Millis} {ts : List Millis} (k : Nat) (hp : s.phase = Phase.pSample.code)
    (hhost : s.host = []) (hbit : s.bitcnt = 0#3) (hhalf : s.half = false) (ht0 : s.t0 = some a)
    (hlast : s.lastNow = some l) (hins : s.ins = v :: vs) (hnows : s.nows = t :: ts) (hv : v.getLsbD 2 = false)
    (hle : l.toNat ≤ t.toNat) : run (k + 18) s = run k (decideDeadline a t (polled s v vs t ts)) := by
  have hsample : exec .pSample s = .next
      (goto .pFill { s with ins := vs, sh := some Config.FILLER, trace := s.trace ++ [.inp v] }) := by
    rw [exec_pSample_of_cons hins, decideDone_of_not_bit2 hv]
  refine Eq.trans (run_of_quietPhase (p := .pSample) (k + 17) hp hhost hsample) ?_
  rw [Nat.add_comm k 17, Nat.add_assoc 16 1 k]
  refine Eq.trans (run_add (1 + k)
    (run_fillerBits .pDeadline (p := .pFill) (by decide) rfl rfl hhost rfl hbit hhalf)) ?_
  rw [Nat.add_comm 1 k]
  refine Eq.trans (run_of_quietPhase (p := .pDeadline) k rfl hhost (exec_pDeadline_of_cons ht0 hlast hnows hle)) ?_
  simp [polled, pollEvents, goto, Config.FILLER]

theorem pollEvents_cons (w : PinWord) (ws : List PinWord) (u : Millis) (us : List Millis) :
    pollEvents (w :: ws) (u :: us) = pollEvents [w] [u] ++ pollEvents ws us := by
  simp [pollEvents]

/-- With DONE low at every sample, the poll ends with DoneTimeout at the first count that is at least T0 + 100. -/
theorem run_pollTimeout {vs vr : List PinWord} {ts tr : List Millis} {a l t : Millis}
    (hp : s.phase = Phase.pSample.code) (hhost : s.host = []) (hbit : s.bitcnt = 0#3) (hhalf : s.half = false)
    (ht0 : s.t0 = some a) (hlast : s.lastNow = some l) (hins : s.ins = vs ++ v :: vr) (hnows : s.nows = ts ++ t :: tr)
    (hlength : vs.length = ts.length) (hlow : ∀ w ∈ vs ++ [v], w.getLsbD 2 = false)
    (hrising : (l :: (ts ++ [t])).Pairwise fun x y => x.toNat ≤ y.toNat)
    (hearly : ∀ u ∈ ts, u.toNat < a.toNat + 100) (hlate : a.toNat + 100 ≤ t.toNat) :
    run (18 * (vs.length + 1) + 1) s = .next
      { s with
        ins := vr, nows := tr, lastNow := some t, sh := some Config.FILLER, out := pinClockWord true
        result := some Kind.doneTimeout.code, phase := Phase.idle.code
        trace := s.trace ++ pollEvents (vs ++ [v]) (ts ++ [t]) ++ [.ret Kind.doneTimeout.code] } := by
  induction vs generalizing s ts l with
  | nil =>
    obtain rfl : ts = [] := List.length_eq_zero_iff.1 hlength.symm
    have hle : l.toNat ≤ t.toNat := List.rel_of_pairwise_cons hrising (by simp)
    refine Eq.trans (run_pollIteration 1 hp hhost hbit hhalf ht0 hlast hins hnows (hlow v (by simp)) hle) ?_
    rw [decideDeadline_of_elapsed hlate]
    exact run_finish .doneTimeout _ hhost
  | cons w vs ih =>
    obtain ⟨u, ts, rfl⟩ := List.exists_cons_of_length_eq_add_one hlength.symm
    have hle : l.toNat ≤ u.toNat := List.rel_of_pairwise_cons hrising (by simp)
    have hiteration := run_pollIteration (18 * (vs.length + 1) + 1) hp hhost hbit hhalf ht0 hlast hins hnows
      (hlow w (by simp)) hle
    rw [decideDeadline_of_early (hearly u (by simp))] at hiteration
    rw [List.length_cons, Nat.mul_succ, Nat.add_right_comm, hiteration]
    refine Eq.trans (ih (s := goto .pSample (polled s w (vs ++ v :: vr) u (ts ++ t :: tr))) (l := u) (ts := ts)
      rfl hhost hbit hhalf ht0 rfl rfl rfl (Nat.succ.inj hlength) (fun x hx => hlow x (List.mem_cons_of_mem w hx))
      hrising.of_cons fun x hx => hearly x (List.mem_cons_of_mem u hx)) ?_
    rw [List.cons_append, List.cons_append, pollEvents_cons w]
    simp [polled, goto]

end Poll

/-- Settles O41: the poll's iterations, and the return of its failure. -/
theorem timeoutAtTheFirstElapsedCount : Obligations.TimeoutAtTheFirstElapsedCount := by
  intro s vs ts v t a l vr tr hp hhost hbit hhalf ht0 hlast hins hnows hlength hlow hrising hearly hlate
  exact run_pollTimeout hp hhost hbit hhalf ht0 hlast hins hnows hlength hlow hrising hearly hlate

/-- Settles O40: the sample, the last filler byte, F_IDLE and X_RET. -/
theorem doneSeenEndsWithSuccess : Obligations.DoneSeenEndsWithSuccess := by
  intro s v vs hp hhost hbit hhalf hins hv
  have hsample : exec .pSample s = .next
      (goto .fComp { s with ins := vs, sh := some Config.FILLER, trace := s.trace ++ [.inp v] }) := by
    rw [exec_pSample_of_cons hins, decideDone_of_bit2 hv]
  refine Eq.trans (run_of_quietPhase (p := .pSample) 18 hp hhost hsample) ?_
  refine Eq.trans (run_add 2 (run_fillerBits .fIdle (p := .fComp) (by decide) rfl rfl hhost rfl hbit hhalf)) ?_
  refine Eq.trans (run_of_quietPhase (p := .fIdle) 1 rfl hhost rfl) ?_
  refine Eq.trans (run_finish .ok _ hhost) ?_
  simp [leave, goto, finish, writeOut, emit, Phase.code, Kind.code, Config.FILLER, pinIdleWord, Config.PROGRAM_B_BIT]

end Sys2Proof.Proofs

namespace Sys2Proof.Proofs

open Machine Safety

/-! ## Written words, and words that are reserved -/

/-- Settles O1: each word is decoded from its format's table. -/
theorem writtenWordsDecode : Obligations.WrittenWordsDecode := by
  unfold Obligations.WrittenWordsDecode
  decide

/-- Settles O2: the table's nineteen places, and none beyond. -/
theorem phaseCodesAreTheTable : Obligations.PhaseCodesAreTheTable := by
  unfold Obligations.PhaseCodesAreTheTable
  decide

/-- Settles O5: the finitely many words of each narrow format, tried one by one. -/
theorem reservedWordsDecodeToNothing : Obligations.ReservedWordsDecodeToNothing := by
  unfold Obligations.ReservedWordsDecodeToNothing
  decide

/-! ## Reads -/

section Reads

variable {s : State}

theorem withRead_of_gt {need : Nat} (h : s.imageExtent < need) (offset n : Nat) (k : List Byte → State → Result) :
    withRead s need offset n k = .refused (.imageBeyondExtent offset) :=
  if_neg (Nat.not_le_of_lt h)

theorem exec_vMagic (s : State) : exec .vMagic s = withRead s Config.HEADER_BYTES 0 4 fun bytes t =>
    .next (decideMagic (be32OfBytes bytes) t) := rfl

theorem exec_vLen (s : State) : exec .vLen s = withRead s Config.HEADER_BYTES 4 4 fun bytes t =>
    .next (decideLen (be32OfBytes bytes) t) := rfl

theorem exec_evRd (o n : Nat) (s : State) : exec (.evRd o n) s = withRead s (o + n) o n fun _ t => .next t := rfl

/-- The bytes of a read are those at ascending addresses (R123). -/
theorem readBytes_eq_map (m : List Host.Cell) (x n : Nat) :
    Memory.readBytes m x n = (List.range n).map fun k => Memory.read m (x + k) := by
  induction n generalizing x with
  | zero => rfl
  | succ n ih =>
    rw [Memory.readBytes, ih, List.range_succ_eq_map]
    simp [Nat.add_comm, Nat.add_left_comm]

end Reads

/-- Settles O18: each of the reads goes through `withRead`. -/
theorem readsBeyondTheExtentAreRefused : Obligations.ReadsBeyondTheExtentAreRefused := by
  refine fun s => ⟨fun h => ⟨?_, ?_⟩, fun i l hidx hlen hne h => ?_, fun o n h => ?_⟩
  · exact (exec_vMagic s).trans (withRead_of_gt h 0 4 _)
  · exact (exec_vLen s).trans (withRead_of_gt h 4 4 _)
  · exact (exec_sFetch_of_ne hidx hlen hne).trans (withRead_of_gt h _ 1 _)
  · exact (exec_evRd o n s).trans (withRead_of_gt h o n _)

/-- Settles O46: the read goes on, and its bytes are those at ascending addresses. -/
theorem memReadReturnsTheBytes : Obligations.MemReadReturnsTheBytes := by
  intro s o n h
  rw [← readBytes_eq_map]
  exact (exec_evRd o n s).trans (withRead_of_le h o n _)

/-! ## Writes of the pin registers, waits, results and returns -/

/-- Settles O22: each row is `Oe(0x13)`, and D_OE moves on. -/
theorem outputsAreEnabled : Obligations.OutputsAreEnabled := fun _ => ⟨rfl, rfl, rfl⟩

/-- Settles O24: each wait makes its event, and the two phases move on. -/
theorem waitsChangeNothing : Obligations.WaitsChangeNothing := fun _ => ⟨rfl, rfl, fun _ => rfl⟩

/-- Settles O39: F_IDLE and X_RET as they write, and the return by itself. -/
theorem finishAndReturn : Obligations.FinishAndReturn := fun _ _ => ⟨rfl, exec_xRet_of_some, rfl⟩

/-- Settles O42: each row is `finish` of its kind. -/
theorem resultsGoToXRet : Obligations.ResultsGoToXRet := fun _ => ⟨rfl, rfl, rfl, rfl, rfl, rfl⟩

/-- Settles O43: the rows write their words, and the events test theirs against the table. -/
theorem outWordsAreWrittenWhole : Obligations.OutWordsAreWrittenWhole := by
  refine fun s => ⟨rfl, rfl, rfl, rfl, rfl, rfl, fun v hv => ?_, fun v hv => ?_, fun v hv => if_neg hv⟩
  · exact if_pos (List.contains_iff_mem.2 hv)
  · exact if_neg fun hcontains => hv (List.contains_iff_mem.1 hcontains)

/-- Settles O48: lines 2 and 3 are the target's; the others are driven by OE's bit at the level of OUT's. -/
theorem linesFollowOutWhereEnabled : Obligations.LinesFollowOutWhereEnabled := by
  refine fun s => ⟨rfl, rfl, fun k hk => ?_⟩
  have hours : lineHigh (Config.DONE_BIT ||| Config.INIT_B_BIT) (1#5 <<< k.val) = false := by
    obtain rfl | rfl | rfl := hk <;> decide
  constructor <;> intro hoe <;> simp only [lineLevel, hours, hoe] <;> rfl

/-! ## Samples and counts -/

section Samples

variable {s : State}

/-- With no answer placed, `In()` takes the free value (R122). -/
theorem takeIn_of_nil (h : s.ins = []) :
    takeIn s = { s with
      inDraws := s.inDraws + 1, trace := s.trace ++ [.inp (Config.freeIn s.inDraws)] } := by
  simp [takeIn_eq, inAnswer_of_nil h, h]

/-- W_INIT's and S_CHECK's decisions are on bit 3 (R166, R185). -/
theorem decideInit_eq_ite (v : PinWord) (s : State) :
    decideInit v s = if v.getLsbD 3 then goto .sFetch s else raise .initTimeout s := by
  rw [decideInit, initReady_eq]

theorem decideCheck_eq_ite (v : PinWord) (s : State) :
    decideCheck v s = if v.getLsbD 3 then goto .sFetch s else raise .midStreamAbort s := by
  rw [decideCheck, initReady_eq]

/-- P_SAMPLE's decision is on bit 2 (R202). -/
theorem decideDone_eq_ite (v : PinWord) (s : State) : decideDone v s =
    { s with sh := some 0xFF#8, phase := if v.getLsbD 2 then 0x10#5 else 0x0E#5 } := by
  rw [decideDone, doneSeen_eq]
  split <;> rfl

end Samples

/-- Settles O34: one sample and its decision. -/
theorem pSampleChoosesOnDone : Obligations.PSampleChoosesOnDone := by
  intro s v vs hins
  rw [exec_pSample_of_cons hins, decideDone_eq_ite]

/-- Settles O37: the two forms of `takeIn`. -/
theorem inOnlySamples : Obligations.InOnlySamples := fun _ =>
  ⟨fun _ _ h => congrArg Host.Outcome.next (takeIn_of_cons h), fun h => congrArg Host.Outcome.next (takeIn_of_nil h)⟩

/-- Settles O38: the three operations decide on the value taken. -/
theorem freeSamplesDecideAlike : Obligations.FreeSamplesDecideAlike := by
  intro s hins v r
  have hanswer : inAnswer s = v := inAnswer_of_nil hins
  have htaken : takeIn s = r := takeIn_of_nil hins
  have hinit : exec .wInit s = .next (decideInit (inAnswer s) (takeIn s)) := rfl
  have hcheck : exec .sCheck s = .next (decideCheck (inAnswer s) (takeIn s)) := rfl
  have hdone : exec .pSample s = .next (decideDone (inAnswer s) (takeIn s)) := rfl
  rw [hinit, hcheck, hdone, hanswer, htaken, decideInit_eq_ite, decideCheck_eq_ite, decideDone_eq_ite]
  exact ⟨rfl, rfl, rfl⟩

/-- Settles O45: the decision on a sample is the same function of its tested bit. -/
theorem ignoredInputBitsDoNotMatter : Obligations.IgnoredInputBitsDoNotMatter := by
  intro s v w vs a b same
  constructor
  · intro hbit
    constructor
    · refine ⟨decideInit v { s with ins := vs }, ?_, ?_⟩
      · rw [exec_wInit_of_cons (s := a) rfl, decideInit_eq_ite, decideInit_eq_ite]
        split <;> rfl
      · rw [exec_wInit_of_cons (s := b) rfl, decideInit_eq_ite, decideInit_eq_ite, hbit]
        split <;> rfl
    · refine ⟨decideCheck v { s with ins := vs }, ?_, ?_⟩
      · rw [exec_sCheck_of_cons (s := a) rfl, decideCheck_eq_ite, decideCheck_eq_ite]
        split <;> rfl
      · rw [exec_sCheck_of_cons (s := b) rfl, decideCheck_eq_ite, decideCheck_eq_ite, hbit]
        split <;> rfl
  · intro hbit
    refine ⟨decideDone v { s with ins := vs }, ?_, ?_⟩
    · rw [exec_pSample_of_cons (s := a) rfl, decideDone_eq_ite, decideDone_eq_ite]
    · rw [exec_pSample_of_cons (s := b) rfl, decideDone_eq_ite, decideDone_eq_ite, hbit]

section InWords

variable {s : State}

theorem answerInit_of_wInit (hp : s.phase = 0x08#5) (v : PinWord) :
    answerInit v s = decideInit v (emit (.inp v) s) :=
  if_pos hp

theorem answerInit_of_sCheck (hp : s.phase = 0x0B#5) (v : PinWord) :
    answerInit v s = decideCheck v (emit (.inp v) s) :=
  (if_neg (by rw [hp]; decide)).trans (if_pos hp)

theorem answerInit_elsewhere (hinit : s.phase ≠ 0x08#5) (hcheck : s.phase ≠ 0x0B#5) (v : PinWord) :
    answerInit v s = s :=
  (if_neg hinit).trans (if_neg hcheck)

theorem answerDone_of_pSample (hp : s.phase = 0x0D#5) (v : PinWord) :
    answerDone v s = decideDone v (emit (.inp v) s) :=
  if_pos hp

theorem answerDone_elsewhere (hp : s.phase ≠ 0x0D#5) (v : PinWord) : answerDone v s = s := if_neg hp

end InWords

/-- Settles O44: the phases that test the bit decide on it, and the others leave the state. -/
theorem inWordsActWhereTested : Obligations.InWordsActWhereTested := by
  intro s v r
  have hready : exec (.inInitReady v) s = .next (answerInit v s) := rfl
  have hnotReady : exec (.inInitNotReady v) s = .next (answerInit v s) := rfl
  have hdone : exec (.inDone v) s = .next (answerDone v s) := rfl
  have hnotDone : exec (.inNotDone v) s = .next (answerDone v s) := rfl
  rw [hready, hnotReady, hdone, hnotDone]
  refine ⟨fun hv => ⟨?_, fun hinit hcheck => ?_⟩, fun hv => ⟨fun hp => ?_, fun hp => ?_, fun hinit hcheck => ?_⟩,
    fun hv => ⟨fun hp => ?_, fun hp => ?_⟩, fun hv => ⟨fun hp => ?_, fun hp => ?_⟩⟩
  · rintro (hp | hp)
    · rw [answerInit_of_wInit hp, decideInit_of_bit3 hv]; rfl
    · rw [answerInit_of_sCheck hp, decideCheck_of_bit3 hv]; rfl
  · rw [answerInit_elsewhere hinit hcheck]
  · rw [answerInit_of_wInit hp, decideInit_of_not_bit3 hv]; rfl
  · rw [answerInit_of_sCheck hp, decideCheck_of_not_bit3 hv]; rfl
  · rw [answerInit_elsewhere hinit hcheck]
  · rw [answerDone_of_pSample hp, decideDone_of_bit2 hv]; rfl
  · rw [answerDone_elsewhere hp]
  · rw [answerDone_of_pSample hp, decideDone_of_not_bit2 hv]; rfl
  · rw [answerDone_elsewhere hp]

section Counts

variable {s : State}

theorem exec_pAnchor (s : State) : exec .pAnchor s =
    withNow s fun t s1 => .next (goto .pSample { s1 with t0 := some t }) := rfl

theorem exec_evNow (s : State) : exec .evNow s = withNow s fun _ t => .next t := rfl

theorem exec_pDeadline_of_some {a : Millis} (h : s.t0 = some a) : exec .pDeadline s =
    withNow s fun t s1 => .next (if deadlineElapsed a t then raise .doneTimeout s1 else goto .pSample s1) := by
  simp [exec, execPDeadline, h]

/-- A placed count below the latest one of the load is refused, whatever asks for it (R124). -/
theorem withNow_of_backwards {t l : Millis} {ts : List Millis} (hnows : s.nows = t :: ts) (hlast : s.lastNow = some l)
    (hlt : t.toNat < l.toNat) (k : Millis → State → Result) :
    withNow s k = .refused (.timeWentBackwards t) := by
  have hcontract : nowInContract s = false := by
    simp only [nowInContract, hnows, hlast]
    exact decide_eq_false (Nat.not_le_of_lt hlt)
  simp [withNow, hcontract, nowAnswer_of_cons hnows]

end Counts

/-- Settles O33: within the contract the count is taken and put into T0. -/
theorem pAnchorSetsT0 : Obligations.PAnchorSetsT0 := by
  intro s hcontract
  refine ⟨?_, fun t ts h => nowAnswer_of_cons h⟩
  rw [exec_pAnchor, withNow_of_inContract hcontract, takeNow_eq]
  rfl

/-- Settles O36: a placed count is tested against the latest; a free one is within the contract, and not below it. -/
theorem nowIsMonotonic : Obligations.NowIsMonotonic := by
  refine fun s => ⟨fun t l ts hnows hlast hlt => ?_, fun t ts hnows hle => ?_, fun hnows => ?_⟩
  · have hrefused := withNow_of_backwards hnows hlast hlt
    refine ⟨(exec_evNow s).trans (hrefused _), (exec_pAnchor s).trans (hrefused _), fun ht0 => ?_⟩
    obtain ⟨a, ha⟩ := Option.isSome_iff_exists.1 ht0
    exact (exec_pDeadline_of_some ha).trans (hrefused _)
  · rw [exec_evNow, withNow_of_inContract (nowInContract_of_cons hnows hle), takeNow_of_cons hnows]
  · have hcontract : nowInContract s = true := by simp [nowInContract, hnows]
    refine ⟨nowAnswer s, fun l hl => le_nowAnswer hcontract hl, ?_⟩
    rw [exec_evNow, withNow_of_inContract hcontract, takeNow_eq, hnows]
    rfl

/-- Settles O47: each register is read before anything is done. -/
theorem readingNoValueFaults : Obligations.ReadingNoValueFaults := by
  refine fun s => ⟨fun h => ?_, fun i hi h => ?_, fun h => ⟨?_, ?_, ?_⟩, fun b hsh hhalf hbit h => ?_, fun b hp h => ?_,
    fun h => ?_, fun h => ?_⟩
  · simp [exec, execSFetch, h]
  · simp [exec, execSFetch, hi, h]
  · simp [exec_sShift, shiftStep, h]
  · simp [exec_pFill, shiftStep, h]
  · simp [exec_fComp, shiftStep, h]
  · rw [exec_sShift, shiftStep_of_eighthClockHalf hsh hhalf hbit]
    simp [endByte, h]
  · rw [exec_shift8, hp]
    simp [shiftTarget, Phase.code, endByte, sentByte, h]
  · simp [exec, execPDeadline, h]
  · simp [exec, execXRet, h]

end Sys2Proof.Proofs
